-- ==== Sys2Proof/Word.lean ====
section
/-! DEFINITION. The widths of the machine's bit vectors: byte, 16-bit half, 32-bit word. -/

namespace Sys2Proof

/-- The addressable unit, 8 bits (20_memory.md R61). -/
abbrev Byte := BitVec 8

/-- 16 bits: a selector, a 16-bit register, a 16-bit offset or displacement. -/
abbrev Half := BitVec 16

/-- 32 bits: a general register, EIP, an offset, a linear address. -/
abbrev Word := BitVec 32

end Sys2Proof
end

