-- ==== Sys2Proof/Config.lean ====
section
/-! DEFINITION. The constants that the spec's decisions fix for the machine (00_scope.md R5). -/

namespace Sys2Proof.Config

/-- What an address that memory does not list reads as. DESIGN CHOICE, unsafe: 20_memory.md R71 takes the contents of
memory from the start state and gives no value of its own (log 3). -/
def unlistedByte : Byte := 0x00#8

/-- The longest instruction in bytes: `FF`, ModR/M, SIB, a 32-bit displacement and three prefixes (92_eei_decisions.md
D29). -/
def maxInstrBytes : Nat := 10

/-- The largest valid offset in Real Address Mode and Virtual 8086 Mode (20_memory.md R60, R67). -/
def realOffsetMax : Nat := 0xFFFF

end Sys2Proof.Config
end

