-- ==== Sys2Proof/Syntax.lean ====
section
/-! DEFINITION. The abstract syntax: one constructor of `Instr` per row of spec/opcode_table.json, over operands in which
register numbers, addressing forms and condition numbers are already names (30_encoding.md). -/

namespace Sys2Proof

/-- The value of an operand-size, address-size or segment-size attribute (10_state.md R32). -/
inductive Size where
  | s16
  | s32
deriving DecidableEq, Repr

/-- The other of 16 and 32, which a size prefix selects (30_encoding.md R104). -/
def Size.other : Size → Size
  | .s16 => .s32
  | .s32 => .s16

/-- The general registers, numbered 0 to 7 in this order (10_state.md R20). -/
inductive Reg where
  | eax | ecx | edx | ebx | esp | ebp | esi | edi
deriving DecidableEq, Repr

/-- The segment registers (10_state.md R28). -/
inductive SegName where
  | cs | ss | ds | es | fs | gs
deriving DecidableEq, Repr

/-- The sixteen conditions, numbered 0 to F in this order; each name is the first mnemonic of the row of
30_encoding.md R93 without its J. -/
inductive Cond where
  | o | no | b | ae | e | ne | be | a | s | ns | p | np | l | ge | le | g
deriving DecidableEq, Repr

/-- The register part of a 16-bit effective address, numbered by `rm` in this order (30_encoding.md R101). -/
inductive Base16 where
  | bxSi | bxDi | bpSi | bpDi | si | di | bp | bx
deriving DecidableEq, Repr

/-- The displacement after a 16-bit ModR/M byte: `mod` = 0, 1 or 2 (30_encoding.md R101). -/
inductive Disp16 where
  | none
  | d8 (d : Byte)
  | d16 (d : Half)
deriving DecidableEq, Repr

/-- The displacement after a 32-bit ModR/M or SIB byte: `mod` = 0, 1 or 2 (30_encoding.md R102, R103). -/
inductive Disp32 where
  | none
  | d8 (d : Byte)
  | d32 (d : Word)
deriving DecidableEq, Repr

/-- The addressing forms of a memory operand (30_encoding.md R101 to R103). `index = none` is the SIB index field 4,
whose scale is kept because the encoding carries it, and ignored by the address. -/
inductive Addr where
  | base16 (b : Base16) (d : Disp16)
  | direct16 (d : Half)
  | base32 (r : Reg) (d : Disp32)
  | direct32 (d : Word)
  | sib (scale : BitVec 2) (index : Option Reg) (base : Reg) (d : Disp32)
  | sibDirect (scale : BitVec 2) (index : Option Reg) (d : Word)
deriving DecidableEq, Repr

/-- The address-size attribute that a form belongs to (30_encoding.md R100). -/
def Addr.size : Addr → Size
  | .base16 .. => .s16
  | .direct16 .. => .s16
  | .base32 .. => .s32
  | .direct32 .. => .s32
  | .sib .. => .s32
  | .sibDirect .. => .s32

/-- A memory operand: the segment override prefix, if there is one, and the address (30_encoding.md R104). -/
structure MemOp where
  override : Option SegName
  addr : Addr
deriving DecidableEq, Repr

/-- The operand of `FF /4`, "a register or memory location" (30_encoding.md R97, R100). -/
inductive RM where
  | reg (r : Reg)
  | mem (m : MemOp)
deriving DecidableEq, Repr

/-- The instructions, in the order of spec/opcode_table.json. `os` is the operand-size attribute where the row leaves it
open; a row that fixes an attribute has it in its name (30_encoding.md R112). -/
inductive Instr where
  /-- JO rel8, `70 cb` (40_jcc.md R145). -/
  | jORel8 (os : Size) (rel : Byte)
  /-- JNO rel8, `71 cb` (40_jcc.md R146). -/
  | jNoRel8 (os : Size) (rel : Byte)
  /-- JB (JC, JNAE) rel8, `72 cb` (40_jcc.md R147). -/
  | jBRel8 (os : Size) (rel : Byte)
  /-- JAE (JNB, JNC) rel8, `73 cb` (40_jcc.md R148). -/
  | jAeRel8 (os : Size) (rel : Byte)
  /-- JE (JZ) rel8, `74 cb` (40_jcc.md R149). -/
  | jERel8 (os : Size) (rel : Byte)
  /-- JNE (JNZ) rel8, `75 cb` (40_jcc.md R150). -/
  | jNeRel8 (os : Size) (rel : Byte)
  /-- JBE (JNA) rel8, `76 cb` (40_jcc.md R151). -/
  | jBeRel8 (os : Size) (rel : Byte)
  /-- JA (JNBE) rel8, `77 cb` (40_jcc.md R152). -/
  | jARel8 (os : Size) (rel : Byte)
  /-- JS rel8, `78 cb` (40_jcc.md R153). -/
  | jSRel8 (os : Size) (rel : Byte)
  /-- JNS rel8, `79 cb` (40_jcc.md R154). -/
  | jNsRel8 (os : Size) (rel : Byte)
  /-- JP (JPE) rel8, `7A cb` (40_jcc.md R155). -/
  | jPRel8 (os : Size) (rel : Byte)
  /-- JNP (JPO) rel8, `7B cb` (40_jcc.md R156). -/
  | jNpRel8 (os : Size) (rel : Byte)
  /-- JL (JNGE) rel8, `7C cb` (40_jcc.md R157). -/
  | jLRel8 (os : Size) (rel : Byte)
  /-- JGE (JNL) rel8, `7D cb` (40_jcc.md R158). -/
  | jGeRel8 (os : Size) (rel : Byte)
  /-- JLE (JNG) rel8, `7E cb` (40_jcc.md R159). -/
  | jLeRel8 (os : Size) (rel : Byte)
  /-- JG (JNLE) rel8, `7F cb` (40_jcc.md R160). -/
  | jGRel8 (os : Size) (rel : Byte)
  /-- JCXZ rel8, `E3 cb` with address size 16 (40_jcc.md R161). -/
  | jcxzRel8 (os : Size) (rel : Byte)
  /-- JECXZ rel8, `E3 cb` with address size 32 (40_jcc.md R162). -/
  | jecxzRel8 (os : Size) (rel : Byte)
  /-- JO rel16, `0F 80 cw` (40_jcc.md R163). -/
  | jORel16 (rel : Half)
  /-- JO rel32, `0F 80 cd` (40_jcc.md R163). -/
  | jORel32 (rel : Word)
  /-- JNO rel16, `0F 81 cw` (40_jcc.md R164). -/
  | jNoRel16 (rel : Half)
  /-- JNO rel32, `0F 81 cd` (40_jcc.md R164). -/
  | jNoRel32 (rel : Word)
  /-- JB (JC, JNAE) rel16, `0F 82 cw` (40_jcc.md R165). -/
  | jBRel16 (rel : Half)
  /-- JB (JC, JNAE) rel32, `0F 82 cd` (40_jcc.md R165). -/
  | jBRel32 (rel : Word)
  /-- JAE (JNB, JNC) rel16, `0F 83 cw` (40_jcc.md R166). -/
  | jAeRel16 (rel : Half)
  /-- JAE (JNB, JNC) rel32, `0F 83 cd` (40_jcc.md R166). -/
  | jAeRel32 (rel : Word)
  /-- JE (JZ) rel16, `0F 84 cw` (40_jcc.md R167). -/
  | jERel16 (rel : Half)
  /-- JE (JZ) rel32, `0F 84 cd` (40_jcc.md R167). -/
  | jERel32 (rel : Word)
  /-- JNE (JNZ) rel16, `0F 85 cw` (40_jcc.md R168). -/
  | jNeRel16 (rel : Half)
  /-- JNE (JNZ) rel32, `0F 85 cd` (40_jcc.md R168). -/
  | jNeRel32 (rel : Word)
  /-- JBE (JNA) rel16, `0F 86 cw` (40_jcc.md R169). -/
  | jBeRel16 (rel : Half)
  /-- JBE (JNA) rel32, `0F 86 cd` (40_jcc.md R169). -/
  | jBeRel32 (rel : Word)
  /-- JA (JNBE) rel16, `0F 87 cw` (40_jcc.md R170). -/
  | jARel16 (rel : Half)
  /-- JA (JNBE) rel32, `0F 87 cd` (40_jcc.md R170). -/
  | jARel32 (rel : Word)
  /-- JS rel16, `0F 88 cw` (40_jcc.md R171). -/
  | jSRel16 (rel : Half)
  /-- JS rel32, `0F 88 cd` (40_jcc.md R171). -/
  | jSRel32 (rel : Word)
  /-- JNS rel16, `0F 89 cw` (40_jcc.md R172). -/
  | jNsRel16 (rel : Half)
  /-- JNS rel32, `0F 89 cd` (40_jcc.md R172). -/
  | jNsRel32 (rel : Word)
  /-- JP (JPE) rel16, `0F 8A cw` (40_jcc.md R173). -/
  | jPRel16 (rel : Half)
  /-- JP (JPE) rel32, `0F 8A cd` (40_jcc.md R173). -/
  | jPRel32 (rel : Word)
  /-- JNP (JPO) rel16, `0F 8B cw` (40_jcc.md R174). -/
  | jNpRel16 (rel : Half)
  /-- JNP (JPO) rel32, `0F 8B cd` (40_jcc.md R174). -/
  | jNpRel32 (rel : Word)
  /-- JL (JNGE) rel16, `0F 8C cw` (40_jcc.md R175). -/
  | jLRel16 (rel : Half)
  /-- JL (JNGE) rel32, `0F 8C cd` (40_jcc.md R175). -/
  | jLRel32 (rel : Word)
  /-- JGE (JNL) rel16, `0F 8D cw` (40_jcc.md R176). -/
  | jGeRel16 (rel : Half)
  /-- JGE (JNL) rel32, `0F 8D cd` (40_jcc.md R176). -/
  | jGeRel32 (rel : Word)
  /-- JLE (JNG) rel16, `0F 8E cw` (40_jcc.md R177). -/
  | jLeRel16 (rel : Half)
  /-- JLE (JNG) rel32, `0F 8E cd` (40_jcc.md R177). -/
  | jLeRel32 (rel : Word)
  /-- JG (JNLE) rel16, `0F 8F cw` (40_jcc.md R178). -/
  | jGRel16 (rel : Half)
  /-- JG (JNLE) rel32, `0F 8F cd` (40_jcc.md R178). -/
  | jGRel32 (rel : Word)
  /-- JMP rel8, `EB cb` (41_jmp_near.md R201). -/
  | jmpRel8 (os : Size) (rel : Byte)
  /-- JMP rel16, `E9 cw` (41_jmp_near.md R202). -/
  | jmpRel16 (rel : Half)
  /-- JMP rel32, `E9 cd` (41_jmp_near.md R203). -/
  | jmpRel32 (rel : Word)
  /-- JMP r/m16, `FF /4` with operand size 16 (41_jmp_near.md R204). -/
  | jmpRm16 (op : RM)
  /-- JMP r/m32, `FF /4` with operand size 32 (41_jmp_near.md R205). -/
  | jmpRm32 (op : RM)
  /-- JMP ptr16:16, `EA cd` (42_jmp_far.md R231). -/
  | jmpPtr1616 (off : Half) (sel : Half)
  /-- JMP ptr16:32, `EA cp` (42_jmp_far.md R232). -/
  | jmpPtr1632 (off : Word) (sel : Half)
  /-- JMP m16:16, `FF /5` with operand size 16 (42_jmp_far.md R233). -/
  | jmpM1616 (m : MemOp)
  /-- JMP m16:32, `FF /5` with operand size 32 (42_jmp_far.md R234). -/
  | jmpM1632 (m : MemOp)
deriving DecidableEq, Repr

end Sys2Proof
end

