-- ==== Sys2Proof/WellFormed.lean ====
section
/-! DEFINITION. Which syntax terms an encoding exists for (30_encoding.md R101 to R103). -/

namespace Sys2Proof

/-- `mod = 0` with `rm = 6` is the bare `disp16`, so BP alone has no encoding (30_encoding.md R101). -/
def Addr.base16Ok (b : Base16) (d : Disp16) : Bool :=
  !(b == .bp && d == .none)

/-- `rm = 4` announces a SIB byte, and `mod = 0` with `rm = 5` is the bare `disp32` (30_encoding.md R102). -/
def Addr.base32Ok (r : Reg) (d : Disp32) : Bool :=
  !(r == .esp) && !(r == .ebp && d == .none)

/-- SIB index field 4 means no index, so ESP is never an index (30_encoding.md R103). -/
def Addr.indexOk (index : Option Reg) : Bool :=
  !(index == some .esp)

/-- SIB base field 5 with `mod = 0` means no base, so EBP as a base has a displacement (30_encoding.md R103). -/
def Addr.sibBaseOk (base : Reg) (d : Disp32) : Bool :=
  !(base == .ebp && d == .none)

/-- The address has an encoding. -/
def Addr.wellFormed : Addr → Bool
  | .base16 b d => Addr.base16Ok b d
  | .direct16 _ => true
  | .base32 r d => Addr.base32Ok r d
  | .direct32 _ => true
  | .sib _ index base d => Addr.indexOk index && Addr.sibBaseOk base d
  | .sibDirect _ index _ => Addr.indexOk index

/-- The memory operand has an encoding; every override does. -/
def MemOp.wellFormed (m : MemOp) : Bool := m.addr.wellFormed

/-- The `FF /4` operand has an encoding. -/
def RM.wellFormed : RM → Bool
  | .reg _ => true
  | .mem m => m.wellFormed

/-- The instruction has an encoding: only the forms with a ModR/M operand can fail to. -/
def Instr.wellFormed : Instr → Bool
  | .jORel8 _ _ => true
  | .jNoRel8 _ _ => true
  | .jBRel8 _ _ => true
  | .jAeRel8 _ _ => true
  | .jERel8 _ _ => true
  | .jNeRel8 _ _ => true
  | .jBeRel8 _ _ => true
  | .jARel8 _ _ => true
  | .jSRel8 _ _ => true
  | .jNsRel8 _ _ => true
  | .jPRel8 _ _ => true
  | .jNpRel8 _ _ => true
  | .jLRel8 _ _ => true
  | .jGeRel8 _ _ => true
  | .jLeRel8 _ _ => true
  | .jGRel8 _ _ => true
  | .jcxzRel8 _ _ => true
  | .jecxzRel8 _ _ => true
  | .jORel16 _ => true
  | .jORel32 _ => true
  | .jNoRel16 _ => true
  | .jNoRel32 _ => true
  | .jBRel16 _ => true
  | .jBRel32 _ => true
  | .jAeRel16 _ => true
  | .jAeRel32 _ => true
  | .jERel16 _ => true
  | .jERel32 _ => true
  | .jNeRel16 _ => true
  | .jNeRel32 _ => true
  | .jBeRel16 _ => true
  | .jBeRel32 _ => true
  | .jARel16 _ => true
  | .jARel32 _ => true
  | .jSRel16 _ => true
  | .jSRel32 _ => true
  | .jNsRel16 _ => true
  | .jNsRel32 _ => true
  | .jPRel16 _ => true
  | .jPRel32 _ => true
  | .jNpRel16 _ => true
  | .jNpRel32 _ => true
  | .jLRel16 _ => true
  | .jLRel32 _ => true
  | .jGeRel16 _ => true
  | .jGeRel32 _ => true
  | .jLeRel16 _ => true
  | .jLeRel32 _ => true
  | .jGRel16 _ => true
  | .jGRel32 _ => true
  | .jmpRel8 _ _ => true
  | .jmpRel16 _ => true
  | .jmpRel32 _ => true
  | .jmpRm16 op => op.wellFormed
  | .jmpRm32 op => op.wellFormed
  | .jmpPtr1616 _ _ => true
  | .jmpPtr1632 _ _ => true
  | .jmpM1616 m => m.wellFormed
  | .jmpM1632 m => m.wellFormed

end Sys2Proof
end

