-- ==== Sys2Proof/Decode.lean ====
section
/-! DEFINITION. The decoder, total on any bytes and rejecting by name, and after it the encoder and the instruction length,
each written from the encoding tables of 30_encoding.md. -/

namespace Sys2Proof

/-! ### Byte order and sign extension (20_memory.md R62; 30_encoding.md R99) -/

/-- Two bytes in address order as a 16-bit value. -/
def le16 (b0 b1 : Byte) : Half := b1 ++ b0

/-- Four bytes in address order as a 32-bit value. -/
def le32 (b0 b1 b2 b3 : Byte) : Word := b3 ++ b2 ++ b1 ++ b0

/-- The bytes of a 16-bit value in address order. -/
def bytes16 (v : Half) : List Byte := [v.extractLsb' 0 8, v.extractLsb' 8 8]

/-- The bytes of a 32-bit value in address order. -/
def bytes32 (v : Word) : List Byte :=
  [v.extractLsb' 0 8, v.extractLsb' 8 8, v.extractLsb' 16 8, v.extractLsb' 24 8]

/-! ### Field codes -/

/-- The register numbered `n` (10_state.md R20). -/
def Reg.ofCode (n : BitVec 3) : Reg :=
  match n.toNat with
  | 0 => .eax
  | 1 => .ecx
  | 2 => .edx
  | 3 => .ebx
  | 4 => .esp
  | 5 => .ebp
  | 6 => .esi
  | _ => .edi

/-- The number of a register (10_state.md R20). -/
def Reg.code : Reg → BitVec 3
  | .eax => 0
  | .ecx => 1
  | .edx => 2
  | .ebx => 3
  | .esp => 4
  | .ebp => 5
  | .esi => 6
  | .edi => 7

/-- The register part that `rm` names under 16-bit addressing (30_encoding.md R101). -/
def Base16.ofCode (n : BitVec 3) : Base16 :=
  match n.toNat with
  | 0 => .bxSi
  | 1 => .bxDi
  | 2 => .bpSi
  | 3 => .bpDi
  | 4 => .si
  | 5 => .di
  | 6 => .bp
  | _ => .bx

/-- The `rm` value of a 16-bit register part (30_encoding.md R101). -/
def Base16.code : Base16 → BitVec 3
  | .bxSi => 0
  | .bxDi => 1
  | .bpSi => 2
  | .bpDi => 3
  | .si => 4
  | .di => 5
  | .bp => 6
  | .bx => 7

/-- The condition numbered `n` (30_encoding.md R93). -/
def Cond.ofCode (n : BitVec 4) : Cond :=
  match n.toNat with
  | 0 => .o
  | 1 => .no
  | 2 => .b
  | 3 => .ae
  | 4 => .e
  | 5 => .ne
  | 6 => .be
  | 7 => .a
  | 8 => .s
  | 9 => .ns
  | 10 => .p
  | 11 => .np
  | 12 => .l
  | 13 => .ge
  | 14 => .le
  | _ => .g

/-- The number of a condition (30_encoding.md R93). -/
def Cond.code : Cond → BitVec 4
  | .o => 0
  | .no => 1
  | .b => 2
  | .ae => 3
  | .e => 4
  | .ne => 5
  | .be => 6
  | .a => 7
  | .s => 8
  | .ns => 9
  | .p => 10
  | .np => 11
  | .l => 12
  | .ge => 13
  | .le => 14
  | .g => 15

/-- The SIB index register: field value 4 means none (30_encoding.md R103). -/
def indexOfCode (n : BitVec 3) : Option Reg :=
  if n = 4 then none else some (Reg.ofCode n)

/-- The SIB index field of an optional index register (30_encoding.md R103). -/
def indexCode : Option Reg → BitVec 3
  | none => 4
  | some r => r.code

/-- The segment override byte of a segment (30_encoding.md R104). -/
def SegName.prefixByte : SegName → Byte
  | .cs => 0x2E
  | .ss => 0x36
  | .ds => 0x3E
  | .es => 0x26
  | .fs => 0x64
  | .gs => 0x65

/-! ### Encoding forms

An instruction is a form of 30_encoding.md R92 to R98 with its fields. `Instr.form` and `Form.instr` are the two directions
of the opcode table; decoding and encoding work on forms. -/

/-- The formats of 30_encoding.md R92 (short Jcc), R94 (count jump), R95 (near Jcc), R96 (relative JMP), R97 (indirect JMP)
and R98 (direct far JMP). -/
inductive Form where
  | jccShort (c : Cond) (os : Size) (rel : Byte)
  | jcountShort (as : Size) (os : Size) (rel : Byte)
  | jccNear16 (c : Cond) (rel : Half)
  | jccNear32 (c : Cond) (rel : Word)
  | jmpShort (os : Size) (rel : Byte)
  | jmpNear16 (rel : Half)
  | jmpNear32 (rel : Word)
  | jmpIndirect (os : Size) (op : RM)
  | jmpDirectFar16 (off : Half) (sel : Half)
  | jmpDirectFar32 (off : Word) (sel : Half)
  | jmpIndirectFar (os : Size) (m : MemOp)
deriving DecidableEq, Repr

/-- The short conditional jump with a condition (30_encoding.md R92, R93). -/
def Instr.jccShort (c : Cond) (os : Size) (rel : Byte) : Instr :=
  match c with
  | .o => .jORel8 os rel
  | .no => .jNoRel8 os rel
  | .b => .jBRel8 os rel
  | .ae => .jAeRel8 os rel
  | .e => .jERel8 os rel
  | .ne => .jNeRel8 os rel
  | .be => .jBeRel8 os rel
  | .a => .jARel8 os rel
  | .s => .jSRel8 os rel
  | .ns => .jNsRel8 os rel
  | .p => .jPRel8 os rel
  | .np => .jNpRel8 os rel
  | .l => .jLRel8 os rel
  | .ge => .jGeRel8 os rel
  | .le => .jLeRel8 os rel
  | .g => .jGRel8 os rel

/-- The near conditional jump with a 16-bit displacement and a condition (30_encoding.md R95, R93). -/
def Instr.jccNear16 (c : Cond) (rel : Half) : Instr :=
  match c with
  | .o => .jORel16 rel
  | .no => .jNoRel16 rel
  | .b => .jBRel16 rel
  | .ae => .jAeRel16 rel
  | .e => .jERel16 rel
  | .ne => .jNeRel16 rel
  | .be => .jBeRel16 rel
  | .a => .jARel16 rel
  | .s => .jSRel16 rel
  | .ns => .jNsRel16 rel
  | .p => .jPRel16 rel
  | .np => .jNpRel16 rel
  | .l => .jLRel16 rel
  | .ge => .jGeRel16 rel
  | .le => .jLeRel16 rel
  | .g => .jGRel16 rel

/-- The near conditional jump with a 32-bit displacement and a condition (30_encoding.md R95, R93). -/
def Instr.jccNear32 (c : Cond) (rel : Word) : Instr :=
  match c with
  | .o => .jORel32 rel
  | .no => .jNoRel32 rel
  | .b => .jBRel32 rel
  | .ae => .jAeRel32 rel
  | .e => .jERel32 rel
  | .ne => .jNeRel32 rel
  | .be => .jBeRel32 rel
  | .a => .jARel32 rel
  | .s => .jSRel32 rel
  | .ns => .jNsRel32 rel
  | .p => .jPRel32 rel
  | .np => .jNpRel32 rel
  | .l => .jLRel32 rel
  | .ge => .jGeRel32 rel
  | .le => .jLeRel32 rel
  | .g => .jGRel32 rel

/-- The instruction of a form: opcode E3 is told apart by the address size (30_encoding.md R94), the rest by the operand
size (30_encoding.md R90). -/
def Form.instr : Form → Instr
  | .jccShort c os rel => Instr.jccShort c os rel
  | .jcountShort .s16 os rel => .jcxzRel8 os rel
  | .jcountShort .s32 os rel => .jecxzRel8 os rel
  | .jccNear16 c rel => Instr.jccNear16 c rel
  | .jccNear32 c rel => Instr.jccNear32 c rel
  | .jmpShort os rel => .jmpRel8 os rel
  | .jmpNear16 rel => .jmpRel16 rel
  | .jmpNear32 rel => .jmpRel32 rel
  | .jmpIndirect .s16 op => .jmpRm16 op
  | .jmpIndirect .s32 op => .jmpRm32 op
  | .jmpDirectFar16 off sel => .jmpPtr1616 off sel
  | .jmpDirectFar32 off sel => .jmpPtr1632 off sel
  | .jmpIndirectFar .s16 m => .jmpM1616 m
  | .jmpIndirectFar .s32 m => .jmpM1632 m

/-- The form of an instruction: the opcode table read by instruction (30_encoding.md R112). -/
def Instr.form : Instr → Form
  | .jORel8 os rel => .jccShort .o os rel
  | .jNoRel8 os rel => .jccShort .no os rel
  | .jBRel8 os rel => .jccShort .b os rel
  | .jAeRel8 os rel => .jccShort .ae os rel
  | .jERel8 os rel => .jccShort .e os rel
  | .jNeRel8 os rel => .jccShort .ne os rel
  | .jBeRel8 os rel => .jccShort .be os rel
  | .jARel8 os rel => .jccShort .a os rel
  | .jSRel8 os rel => .jccShort .s os rel
  | .jNsRel8 os rel => .jccShort .ns os rel
  | .jPRel8 os rel => .jccShort .p os rel
  | .jNpRel8 os rel => .jccShort .np os rel
  | .jLRel8 os rel => .jccShort .l os rel
  | .jGeRel8 os rel => .jccShort .ge os rel
  | .jLeRel8 os rel => .jccShort .le os rel
  | .jGRel8 os rel => .jccShort .g os rel
  | .jcxzRel8 os rel => .jcountShort .s16 os rel
  | .jecxzRel8 os rel => .jcountShort .s32 os rel
  | .jORel16 rel => .jccNear16 .o rel
  | .jORel32 rel => .jccNear32 .o rel
  | .jNoRel16 rel => .jccNear16 .no rel
  | .jNoRel32 rel => .jccNear32 .no rel
  | .jBRel16 rel => .jccNear16 .b rel
  | .jBRel32 rel => .jccNear32 .b rel
  | .jAeRel16 rel => .jccNear16 .ae rel
  | .jAeRel32 rel => .jccNear32 .ae rel
  | .jERel16 rel => .jccNear16 .e rel
  | .jERel32 rel => .jccNear32 .e rel
  | .jNeRel16 rel => .jccNear16 .ne rel
  | .jNeRel32 rel => .jccNear32 .ne rel
  | .jBeRel16 rel => .jccNear16 .be rel
  | .jBeRel32 rel => .jccNear32 .be rel
  | .jARel16 rel => .jccNear16 .a rel
  | .jARel32 rel => .jccNear32 .a rel
  | .jSRel16 rel => .jccNear16 .s rel
  | .jSRel32 rel => .jccNear32 .s rel
  | .jNsRel16 rel => .jccNear16 .ns rel
  | .jNsRel32 rel => .jccNear32 .ns rel
  | .jPRel16 rel => .jccNear16 .p rel
  | .jPRel32 rel => .jccNear32 .p rel
  | .jNpRel16 rel => .jccNear16 .np rel
  | .jNpRel32 rel => .jccNear32 .np rel
  | .jLRel16 rel => .jccNear16 .l rel
  | .jLRel32 rel => .jccNear32 .l rel
  | .jGeRel16 rel => .jccNear16 .ge rel
  | .jGeRel32 rel => .jccNear32 .ge rel
  | .jLeRel16 rel => .jccNear16 .le rel
  | .jLeRel32 rel => .jccNear32 .le rel
  | .jGRel16 rel => .jccNear16 .g rel
  | .jGRel32 rel => .jccNear32 .g rel
  | .jmpRel8 os rel => .jmpShort os rel
  | .jmpRel16 rel => .jmpNear16 rel
  | .jmpRel32 rel => .jmpNear32 rel
  | .jmpRm16 op => .jmpIndirect .s16 op
  | .jmpRm32 op => .jmpIndirect .s32 op
  | .jmpPtr1616 off sel => .jmpDirectFar16 off sel
  | .jmpPtr1632 off sel => .jmpDirectFar32 off sel
  | .jmpM1616 m => .jmpIndirectFar .s16 m
  | .jmpM1632 m => .jmpIndirectFar .s32 m

/-! ### Decoding -/

/-- Why bytes decode to no instruction. -/
inductive Reject where
  /-- The bytes ran out before the instruction ended (20_memory.md R70). -/
  | truncated
  /-- Not one of the encodings of the spec (30_encoding.md R104, R108). -/
  | notInSpec
  /-- `FF /5` with a register operand (30_encoding.md R106). -/
  | invalidOpcode
deriving DecidableEq, Repr

/-- Read one byte: a reader gives what it read and the bytes after it, or why it cannot. -/
def take8 : List Byte → Except Reject (Byte × List Byte)
  | b :: r => .ok (b, r)
  | _ => .error .truncated

/-- Read a little-endian 16-bit field. -/
def take16 : List Byte → Except Reject (Half × List Byte)
  | b0 :: b1 :: r => .ok (le16 b0 b1, r)
  | _ => .error .truncated

/-- Read a little-endian 32-bit field. -/
def take32 : List Byte → Except Reject (Word × List Byte)
  | b0 :: b1 :: b2 :: b3 :: r => .ok (le32 b0 b1 b2 b3, r)
  | _ => .error .truncated

/-- The prefixes read so far: each at most once (30_encoding.md R104). -/
structure Prefixes where
  opSize : Bool := false
  addrSize : Bool := false
  seg : Option SegName := none
deriving DecidableEq, Repr

/-- What a prefix byte does. -/
inductive PrefixKind where
  | opSize
  | addrSize
  | seg (s : SegName)
deriving DecidableEq, Repr

/-- The prefix bytes of 30_encoding.md R104; every other byte is an opcode. -/
def prefixKind (b : Byte) : Option PrefixKind :=
  match b.toNat with
  | 0x66 => some .opSize
  | 0x67 => some .addrSize
  | 0x2E => some (.seg .cs)
  | 0x36 => some (.seg .ss)
  | 0x3E => some (.seg .ds)
  | 0x26 => some (.seg .es)
  | 0x64 => some (.seg .fs)
  | 0x65 => some (.seg .gs)
  | _ => none

/-- Add one prefix to those read: `none` when it repeats one (30_encoding.md R104). A second segment override counts as a
repeat, DEDUCED from the ten-byte bound of 92_eei_decisions.md D29, safe (log 9). -/
def Prefixes.add (p : Prefixes) : PrefixKind → Option Prefixes
  | .opSize => if p.opSize then none else some { p with opSize := true }
  | .addrSize => if p.addrSize then none else some { p with addrSize := true }
  | .seg s => if p.seg.isSome then none else some { p with seg := some s }

/-- Read the prefixes: the result holds them and the opcode byte onwards (30_encoding.md R90, R104). -/
def takePrefixes (p : Prefixes) : List Byte → Except Reject (Prefixes × List Byte)
  | [] => .error .truncated
  | b :: r =>
    match prefixKind b with
    | none => .ok (p, b :: r)
    | some k =>
      match p.add k with
      | none => .error .notInSpec
      | some p' => takePrefixes p' r

/-- The attribute that a size prefix gives: the other value when the prefix is present, the segment's default otherwise
(30_encoding.md R105). -/
def Size.prefixed (dflt : Size) (present : Bool) : Size := if present then dflt.other else dflt

/-- The address-size prefix and the segment overrides have nothing to act on (30_encoding.md R104). -/
def Prefixes.onlyOpSize (p : Prefixes) : Bool := !p.addrSize && p.seg.isNone

/-- The addressing form after a ModR/M byte with 16-bit addressing (30_encoding.md R101). -/
def takeAddr16 (mod : BitVec 2) (rm : BitVec 3) (r : List Byte) : Except Reject (Addr × List Byte) :=
  match mod.toNat with
  | 0 =>
    if rm = 6 then do
      let (d, r) ← take16 r
      .ok (.direct16 d, r)
    else .ok (.base16 (Base16.ofCode rm) .none, r)
  | 1 => do
    let (d, r) ← take8 r
    .ok (.base16 (Base16.ofCode rm) (.d8 d), r)
  | _ => do
    let (d, r) ← take16 r
    .ok (.base16 (Base16.ofCode rm) (.d16 d), r)

/-- The addressing form after a ModR/M byte with `rm = 4` and 32-bit addressing: a SIB byte follows (30_encoding.md
R103). -/
def takeSib (mod : BitVec 2) (r : List Byte) : Except Reject (Addr × List Byte) := do
  let (sib, r) ← take8 r
  let scale := sib.extractLsb' 6 2
  let index := indexOfCode (sib.extractLsb' 3 3)
  let base := sib.extractLsb' 0 3
  match mod.toNat with
  | 0 =>
    if base = 5 then do
      let (d, r) ← take32 r
      .ok (.sibDirect scale index d, r)
    else .ok (.sib scale index (Reg.ofCode base) .none, r)
  | 1 => do
    let (d, r) ← take8 r
    .ok (.sib scale index (Reg.ofCode base) (.d8 d), r)
  | _ => do
    let (d, r) ← take32 r
    .ok (.sib scale index (Reg.ofCode base) (.d32 d), r)

/-- The addressing form after a ModR/M byte with 32-bit addressing (30_encoding.md R102). -/
def takeAddr32 (mod : BitVec 2) (rm : BitVec 3) (r : List Byte) : Except Reject (Addr × List Byte) :=
  if rm = 4 then takeSib mod r
  else
    match mod.toNat with
    | 0 =>
      if rm = 5 then do
        let (d, r) ← take32 r
        .ok (.direct32 d, r)
      else .ok (.base32 (Reg.ofCode rm) .none, r)
    | 1 => do
      let (d, r) ← take8 r
      .ok (.base32 (Reg.ofCode rm) (.d8 d), r)
    | _ => do
      let (d, r) ← take32 r
      .ok (.base32 (Reg.ofCode rm) (.d32 d), r)

/-- The addressing form after a ModR/M byte with `mod <> 3` (30_encoding.md R100). -/
def takeAddr (as : Size) (mod : BitVec 2) (rm : BitVec 3) (r : List Byte) : Except Reject (Addr × List Byte) :=
  match as with
  | .s16 => takeAddr16 mod rm r
  | .s32 => takeAddr32 mod rm r

/-- What follows opcode FF: the `reg` field is 4 or 5 (30_encoding.md R97), `/4` takes a register or memory, `/5` memory
only (R106). A prefix with nothing to act on is refused before the register form of `/5` is found illegal: DESIGN CHOICE,
safe (log 9). -/
def takeGroupFF (p : Prefixes) (os as : Size) (r : List Byte) : Except Reject (Form × List Byte) := do
  let (m, r) ← take8 r
  let mod := m.extractLsb' 6 2
  let rm := m.extractLsb' 0 3
  match (m.extractLsb' 3 3).toNat with
  | 4 =>
    if mod = 3 then
      if p.onlyOpSize then .ok (.jmpIndirect os (.reg (Reg.ofCode rm)), r) else .error .notInSpec
    else do
      let (a, r) ← takeAddr as mod rm r
      .ok (.jmpIndirect os (.mem { override := p.seg, addr := a }), r)
  | 5 =>
    if mod = 3 then
      if p.onlyOpSize then .error .invalidOpcode else .error .notInSpec
    else do
      let (a, r) ← takeAddr as mod rm r
      .ok (.jmpIndirectFar os { override := p.seg, addr := a }, r)
  | _ => .error .notInSpec

/-- What follows opcode byte 0F: a second byte 80 to 8F and a displacement of the operand size (30_encoding.md R95). -/
def takeGroup0F (os : Size) (r : List Byte) : Except Reject (Form × List Byte) := do
  let (op, r) ← take8 r
  if op.extractLsb' 4 4 = 8 then
    let c := Cond.ofCode (op.extractLsb' 0 4)
    match os with
    | .s16 => do
      let (d, r) ← take16 r
      .ok (.jccNear16 c d, r)
    | .s32 => do
      let (d, r) ← take32 r
      .ok (.jccNear32 c d, r)
  else .error .notInSpec

/-- Opcode E9: the operand size picks the width of the displacement (30_encoding.md R96). -/
def takeNear (os : Size) (r : List Byte) : Except Reject (Form × List Byte) :=
  match os with
  | .s16 => do
    let (d, r) ← take16 r
    .ok (.jmpNear16 d, r)
  | .s32 => do
    let (d, r) ← take32 r
    .ok (.jmpNear32 d, r)

/-- Opcode EA: the offset comes first, the selector in the last two bytes (20_memory.md R63; 30_encoding.md R98, R99). -/
def takePointer (os : Size) (r : List Byte) : Except Reject (Form × List Byte) :=
  match os with
  | .s16 => do
    let (off, r) ← take16 r
    let (sel, r) ← take16 r
    .ok (.jmpDirectFar16 off sel, r)
  | .s32 => do
    let (off, r) ← take32 r
    let (sel, r) ← take16 r
    .ok (.jmpDirectFar32 off sel, r)

/-- The form from the opcode byte onwards (30_encoding.md R90). -/
def takeForm (p : Prefixes) (os as : Size) (op : Byte) (r : List Byte) : Except Reject (Form × List Byte) :=
  if op = 0xFF then takeGroupFF p os as r
  else if op = 0xE3 then
    if p.seg.isNone then do
      let (d, r) ← take8 r
      .ok (.jcountShort as os d, r)
    else .error .notInSpec
  else if !p.onlyOpSize then .error .notInSpec
  else if op.extractLsb' 4 4 = 7 then do
    let (d, r) ← take8 r
    .ok (.jccShort (Cond.ofCode (op.extractLsb' 0 4)) os d, r)
  else if op = 0x0F then takeGroup0F os r
  else if op = 0xE9 then takeNear os r
  else if op = 0xEA then takePointer os r
  else if op = 0xEB then do
    let (d, r) ← take8 r
    .ok (.jmpShort os d, r)
  else .error .notInSpec

/-- Decoding: a function of the bytes and of the code segment's size attribute (30_encoding.md R90, R105). The result holds
the instruction and the bytes after it. -/
def decode (cs : Size) (bs : List Byte) : Except Reject (Instr × List Byte) := do
  let (p, r) ← takePrefixes {} bs
  let (op, r) ← take8 r
  let (f, r) ← takeForm p (cs.prefixed p.opSize) (cs.prefixed p.addrSize) op r
  .ok (f.instr, r)

/-! ### Encoding -/

/-- A ModR/M or SIB byte from its three fields (30_encoding.md R100, R103). -/
def fieldByte (hi : BitVec 2) (mid lo : BitVec 3) : Byte := hi ++ mid ++ lo

/-- The `mod` value and the bytes of a displacement under 16-bit addressing (30_encoding.md R101). -/
def Disp16.encode : Disp16 → BitVec 2 × List Byte
  | .none => (0, [])
  | .d8 d => (1, [d])
  | .d16 d => (2, bytes16 d)

/-- The `mod` value and the bytes of a displacement under 32-bit addressing (30_encoding.md R102). -/
def Disp32.encode : Disp32 → BitVec 2 × List Byte
  | .none => (0, [])
  | .d8 d => (1, [d])
  | .d32 d => (2, bytes32 d)

/-- The ModR/M byte with a given `reg` field, the SIB byte and the displacement of an address (30_encoding.md R101 to
R103). -/
def Addr.encode (digit : BitVec 3) : Addr → List Byte
  | .base16 b d => fieldByte d.encode.1 digit b.code :: d.encode.2
  | .direct16 d => fieldByte 0 digit 6 :: bytes16 d
  | .base32 r d => fieldByte d.encode.1 digit r.code :: d.encode.2
  | .direct32 d => fieldByte 0 digit 5 :: bytes32 d
  | .sib scale index base d =>
    fieldByte d.encode.1 digit 4 :: fieldByte scale (indexCode index) base.code :: d.encode.2
  | .sibDirect scale index d => fieldByte 0 digit 4 :: fieldByte scale (indexCode index) 5 :: bytes32 d

/-- The prefix 66 when the operand size is not the segment's default (30_encoding.md R104, R105). -/
def opSizePrefix (cs os : Size) : List Byte := if os = cs then [] else [0x66]

/-- The prefix 67 when the address size is not the segment's default (30_encoding.md R104, R105). -/
def addrSizePrefix (cs as : Size) : List Byte := if as = cs then [] else [0x67]

/-- The segment override prefix (30_encoding.md R104). -/
def segPrefix : Option SegName → List Byte
  | none => []
  | some s => [s.prefixByte]

/-- The prefixes of a form with a memory operand. -/
def memPrefixes (cs os : Size) (m : MemOp) : List Byte :=
  opSizePrefix cs os ++ addrSizePrefix cs m.addr.size ++ segPrefix m.override

/-- The bytes of a form in a code segment of a given size attribute (30_encoding.md R92 to R98). -/
def Form.encode (cs : Size) : Form → List Byte
  | .jccShort c os rel => opSizePrefix cs os ++ [7#4 ++ c.code, rel]
  | .jcountShort as os rel => opSizePrefix cs os ++ addrSizePrefix cs as ++ [0xE3, rel]
  | .jccNear16 c rel => opSizePrefix cs .s16 ++ ([0x0F, 8#4 ++ c.code] ++ bytes16 rel)
  | .jccNear32 c rel => opSizePrefix cs .s32 ++ ([0x0F, 8#4 ++ c.code] ++ bytes32 rel)
  | .jmpShort os rel => opSizePrefix cs os ++ [0xEB, rel]
  | .jmpNear16 rel => opSizePrefix cs .s16 ++ (0xE9 :: bytes16 rel)
  | .jmpNear32 rel => opSizePrefix cs .s32 ++ (0xE9 :: bytes32 rel)
  | .jmpIndirect os (.reg r) => opSizePrefix cs os ++ [0xFF, fieldByte 3 4 r.code]
  | .jmpIndirect os (.mem m) => memPrefixes cs os m ++ (0xFF :: m.addr.encode 4)
  | .jmpDirectFar16 off sel => opSizePrefix cs .s16 ++ (0xEA :: (bytes16 off ++ bytes16 sel))
  | .jmpDirectFar32 off sel => opSizePrefix cs .s32 ++ (0xEA :: (bytes32 off ++ bytes16 sel))
  | .jmpIndirectFar os m => memPrefixes cs os m ++ (0xFF :: m.addr.encode 5)

/-- The bytes of an instruction in a code segment of a given size attribute, prefixes in the order 66, 67, override. -/
def encode (cs : Size) (i : Instr) : List Byte := i.form.encode cs

/-! ### Length -/

/-- One byte for a size prefix, when it is needed (30_encoding.md R91). -/
def sizePrefixLength (cs attr : Size) : Nat := if attr = cs then 0 else 1

/-- The displacement bytes under 16-bit addressing (30_encoding.md R101). -/
def Disp16.length : Disp16 → Nat
  | .none => 0
  | .d8 _ => 1
  | .d16 _ => 2

/-- The displacement bytes under 32-bit addressing (30_encoding.md R102). -/
def Disp32.length : Disp32 → Nat
  | .none => 0
  | .d8 _ => 1
  | .d32 _ => 4

/-- The SIB and displacement bytes of an address (30_encoding.md R91, R101 to R103). -/
def Addr.length : Addr → Nat
  | .base16 _ d => d.length
  | .direct16 _ => 2
  | .base32 _ d => d.length
  | .direct32 _ => 4
  | .sib _ _ _ d => 1 + d.length
  | .sibDirect .. => 5

/-- The prefix and address bytes of a form with a memory operand. -/
def MemOp.length (cs os : Size) (m : MemOp) : Nat :=
  sizePrefixLength cs os + sizePrefixLength cs m.addr.size + (if m.override.isSome then 1 else 0) + m.addr.length

/-- The length of a form in bytes, prefixes included (30_encoding.md R91). -/
def Form.length (cs : Size) : Form → Nat
  | .jccShort _ os _ => sizePrefixLength cs os + 2
  | .jcountShort as os _ => sizePrefixLength cs os + sizePrefixLength cs as + 2
  | .jccNear16 .. => sizePrefixLength cs .s16 + 4
  | .jccNear32 .. => sizePrefixLength cs .s32 + 6
  | .jmpShort os _ => sizePrefixLength cs os + 2
  | .jmpNear16 _ => sizePrefixLength cs .s16 + 3
  | .jmpNear32 _ => sizePrefixLength cs .s32 + 5
  | .jmpIndirect os (.reg _) => sizePrefixLength cs os + 2
  | .jmpIndirect os (.mem m) => m.length cs os + 2
  | .jmpDirectFar16 .. => sizePrefixLength cs .s16 + 5
  | .jmpDirectFar32 .. => sizePrefixLength cs .s32 + 7
  | .jmpIndirectFar os m => m.length cs os + 2

/-- The length of an instruction in a code segment of a given size attribute: it settles `next` (00_scope.md R10). -/
def instrLength (cs : Size) (i : Instr) : Nat := i.form.length cs

/-! ### The host's numbering of an instruction's bits -/

/-- `count` bytes of a number, the least significant first. -/
def bytesOfNat : Nat → Nat → List Byte
  | 0, _ => []
  | count + 1, w => BitVec.ofNat 8 w :: bytesOfNat count (w / 256)

/-- The bytes of the instruction whose bits are `w`, zeros above `nbits`, up to the longest instruction. -/
def tableBytes (nbits w : Nat) : List Byte := bytesOfNat Config.maxInstrBytes (w % 2 ^ nbits)

/-- The bytes that decoding reads, when it finds an instruction. -/
def decodedLength (cs : Size) (bs : List Byte) : Option Nat :=
  match decode cs bs with
  | .ok (_, r) => some (bs.length - r.length)
  | .error _ => none

/-- The segment size attribute under which a table row is read: 32 when the row's bits are exactly an instruction of a
32-bit segment and not of a 16-bit one, 16 otherwise. DESIGN CHOICE, safe (log 27). -/
def tableSize (nbits w : Nat) : Size :=
  let bs := tableBytes nbits w
  if decodedLength .s32 bs = some (nbits / 8) && !(decodedLength .s16 bs = some (nbits / 8)) then .s32 else .s16

/-- The instruction that the decoder reads from bits numbered as spec/opcode_table.json numbers them (log 27). -/
def decodeTableWord (nbits w : Nat) : Option Instr :=
  match decode (tableSize nbits w) (tableBytes nbits w) with
  | .ok (i, _) => some i
  | .error _ => none

end Sys2Proof
end

