-- ==== Sys2Proof/Machine/State.lean ====
section
/-! DEFINITION. The state of the machine as plain data, the reasons a step stops for, and the state after reset. -/

namespace Sys2Proof.Machine

/-- The eight general registers (10_state.md R20). -/
structure GPRegs where
  eax : Word
  ecx : Word
  edx : Word
  ebx : Word
  esp : Word
  ebp : Word
  esi : Word
  edi : Word
deriving DecidableEq, Repr

/-- The five status flags, five independent booleans (10_state.md R24). -/
structure Flags where
  cf : Bool
  pf : Bool
  zf : Bool
  sf : Bool
  of : Bool
deriving DecidableEq, Repr

/-- A segment register: the selector that software sees and the hidden copy of a descriptor (10_state.md R28). -/
structure Segment where
  selector : Half
  base : Word
  limit : Word
  ar : Byte
  size : Size
deriving DecidableEq, Repr

/-- Where a table is: a linear base and the offset of its last valid byte (42_jmp_far.md R245). -/
structure TableReg where
  base : Word
  limit : Half
deriving DecidableEq, Repr

/-- An entry of a descriptor table: 8 bytes, byte `k` in bits `8k+7..8k` (42_jmp_far.md R246, R247). -/
structure Descriptor where
  raw : BitVec 64
deriving DecidableEq, Repr

/-- The three operating modes (10_state.md R27). -/
inductive Mode where
  | real
  | protectedMode
  | v86
deriving DecidableEq, Repr

/-- Memory: (address, byte) pairs, addresses strictly rising, no entry equal to what an unlisted address reads as. -/
abbrev Memory := List Host.Cell

/-- The state of the machine: every field but `pastEnd` is named by a rule of spec/ (INVENTORY.md, State). -/
structure State where
  /-- General registers (10_state.md R20). -/
  regs : GPRegs
  /-- The instruction pointer, an offset in the code segment (10_state.md R23). -/
  eip : Word
  /-- Sequential execution has run past offset 2^32 - 1: EIP holds the following offset modulo 2^32, and the fetch there is
  refused (20_memory.md R70; 92_eei_decisions.md D24, D29). The model's own field, since EIP alone cannot tell (log 37). -/
  pastEnd : Bool
  /-- Status flags (10_state.md R24). -/
  flags : Flags
  /-- The VM bit (10_state.md R26). -/
  vm : Bool
  /-- The PE bit (10_state.md R26). -/
  pe : Bool
  /-- The interrupt mask that the reset table of 10_state.md R35 lists; no rule reads or writes it (log 26). -/
  interruptFlag : Bool
  /-- Segment registers (10_state.md R28). -/
  cs : Segment
  ss : Segment
  ds : Segment
  es : Segment
  fs : Segment
  gs : Segment
  /-- The current privilege level (10_state.md R29). -/
  cpl : BitVec 2
  /-- The global descriptor table (10_state.md R30; 42_jmp_far.md R245). -/
  gdtr : TableReg
  /-- The local descriptor table (10_state.md R30; 42_jmp_far.md R245). -/
  ldtr : TableReg
  /-- The interrupt table that the reset table of 10_state.md R35 lists; no rule reads it (log 26). -/
  idtr : TableReg
  /-- Whether paging is on (20_memory.md R69). -/
  pagingEnabled : Bool
  /-- Memory (20_memory.md R60, R71). -/
  mem : Memory
deriving DecidableEq, Repr

/-- The exceptions that the spec names (60_exceptions.md R280, R283; 30_encoding.md R106). Raising one ends the run with
the state unchanged (R284); no handler runs, because no source describes one. That is safe: nothing can be proved about
execution after a fault (92_eei_decisions.md D9; log 4). -/
inductive Fault where
  /-- General protection with its error code: a target or operand beyond a limit, or a failed check of a protected far
  JMP raises it (60_exceptions.md R281). Safe. -/
  | gp (code : Half)
  /-- Segment not present, raised by a protected far JMP (42_jmp_far.md R244). Safe. -/
  | np (code : Half)
  /-- Stack fault, raised by an operand read through SS beyond its limit in Protected Mode (20_memory.md R66). Safe. -/
  | ss (code : Half)
  /-- Invalid task state segment: named by the spec and raised by no rule, since the task switch is refused before it can
  arise (42_jmp_far.md R252). Safe. -/
  | ts
  /-- Page fault: named by the spec and raised by no rule, since paging is off (60_exceptions.md R293). Safe. -/
  | pf
  /-- "Interrupt 13", raised by an operand outside offsets 0 to FFFFH in Real Address Mode or V86 mode (20_memory.md R67;
  60_exceptions.md R283). Safe. -/
  | interrupt13
  /-- Invalid opcode, raised by `FF /5` with a register operand (30_encoding.md R106). PRESUMED (GK20) and unsafe: hardware
  could do something else there (log 10). -/
  | invalidOpcode
deriving DecidableEq, Repr

/-- The refusals of 60_exceptions.md R285: the spec does not say what the hardware does, and the model claims nothing about
any later state. Each is safe. -/
inductive Refusal where
  /-- `exec` has no meaning for the instruction yet; no arm of `exec` uses it. Safe. -/
  | notModelled (mnemonic : String)
  /-- The step finds bytes that are not one of the encodings of the spec (30_encoding.md R104, R108). Safe. -/
  | notInSpec
  /-- A jump in Real Address Mode or V86 mode has a target above the code segment limit (40_jcc.md R140; 41_jmp_near.md
  R200; 42_jmp_far.md R236). Safe. -/
  | targetBeyondLimit
  /-- A far JMP has passed every check that precedes SWITCH-TASKS (42_jmp_far.md R252). Safe. -/
  | taskSwitch
  /-- Memory is read in a state that has paging on (20_memory.md R69). Safe. -/
  | pagingOn
  /-- The step needs an instruction byte above the CS limit or past offset 2^32 - 1 (20_memory.md R70). Safe. -/
  | fetchBeyondLimit
  /-- A memory operand in Protected Mode goes through a segment register that does not hold a present, readable, expand-up
  segment (20_memory.md R66). Safe. -/
  | illegalOperandSegment
deriving DecidableEq, Repr

/-- A segment register after reset that the family resets to selector 0: base 0, limit FFFFH, present, readable,
16-bit. PRESUMED, unsafe (log 1). -/
def Segment.afterReset : Segment :=
  { selector := 0x0000, base := 0x00000000, limit := 0x0000FFFF, ar := 0x93, size := .s16 }

/-- The machine right after reset. The spec states no reset value (10_state.md R35, 70_reset_and_hazards.md R320); the
values are those of R35's reference column and the family's, PRESUMED and unsafe (log 1), and where those give none,
zero, DESIGN CHOICE and unsafe (log 2). Memory lists nothing (log 3). Nothing has run yet (log 37). -/
def State.reset : State where
  regs :=
    { eax := 0x00000000, ecx := 0x00000000, edx := 0x00000300, ebx := 0x00000000,
      esp := 0x00000000, ebp := 0x00000000, esi := 0x00000000, edi := 0x00000000 }
  eip := 0x0000FFF0
  pastEnd := false
  flags := { cf := false, pf := false, zf := false, sf := false, of := false }
  vm := false
  pe := false
  interruptFlag := false
  cs := { selector := 0xF000, base := 0xFFFF0000, limit := 0x0000FFFF, ar := 0x93, size := .s16 }
  ss := Segment.afterReset
  ds := Segment.afterReset
  es := Segment.afterReset
  fs := Segment.afterReset
  gs := Segment.afterReset
  cpl := 0
  gdtr := { base := 0x00000000, limit := 0x0000 }
  ldtr := { base := 0x00000000, limit := 0x0000 }
  idtr := { base := 0x00000000, limit := 0x03FF }
  pagingEnabled := false
  mem := []

end Sys2Proof.Machine
end

