-- ==== Sys2Proof/Machine/Ops.lean ====
section
/-! DEFINITION. The named operations over registers and memory: the mode, register reads, memory reads and writes, raising
and refusing, the checked operand read, and the near transfer that every near jump ends in. -/

namespace Sys2Proof.Machine

/-! ### Ending an instruction -/

/-- Why an instruction ends without a next state: `raise X` (60_exceptions.md R284) or `refuse(reason)` (R285). -/
inductive Stop where
  | raise (f : Fault)
  | refuse (r : Refusal)
deriving DecidableEq, Repr

/-- A check of the spec's pseudocode: "A must be B ELSE #X(code)" (00_scope.md R7). -/
def orRaise (c : Bool) (f : Fault) : Except Stop Unit := if c then .ok () else .error (.raise f)

/-- A condition outside which the spec gives no meaning (60_exceptions.md R285). -/
def orRefuse (c : Bool) (r : Refusal) : Except Stop Unit := if c then .ok () else .error (.refuse r)

/-- Taking an exception (60_exceptions.md R284): the run ends with the named fault. The outcome carries no state, so the
state before the instruction, its EIP included, is the state at the fault. The spec describes no handler, no saved
register and no return (R288, R289), so there is no entry and no return to model (log 4). -/
def takeException (f : Fault) : Host.Outcome State Fault Refusal := .fault f

/-- The outcome of an instruction: its next state, the exception it takes, or its refusal. -/
def finish : Except Stop State → Host.Outcome State Fault Refusal
  | .ok s => .next s
  | .error (.raise f) => takeException f
  | .error (.refuse r) => .refused r

/-- The vector number of each exception name (60_exceptions.md R282; nothing is delivered through it). -/
def Fault.vector : Fault → Nat
  | .gp _ => 13
  | .np _ => 11
  | .ss _ => 12
  | .ts => 10
  | .pf => 14
  | .interrupt13 => 13
  | .invalidOpcode => 6

/-! ### Registers and mode -/

/-- The mode that PE and VM select (10_state.md R27). -/
def State.mode (s : State) : Mode :=
  if !s.pe then .real else if s.vm then .v86 else .protectedMode

/-- The 32-bit general register `x[i]` (10_state.md R20). -/
def State.reg (s : State) : Reg → Word
  | .eax => s.regs.eax
  | .ecx => s.regs.ecx
  | .edx => s.regs.edx
  | .ebx => s.regs.ebx
  | .esp => s.regs.esp
  | .ebp => s.regs.ebp
  | .esi => s.regs.esi
  | .edi => s.regs.edi

/-- The 16-bit register `x16[i]`, bits 15:0 of `x[i]` (10_state.md R21). -/
def State.reg16 (s : State) (r : Reg) : Half := (s.reg r).setWidth 16

/-- A segment register by name (10_state.md R28). -/
def State.seg (s : State) : SegName → Segment
  | .cs => s.cs
  | .ss => s.ss
  | .ds => s.ds
  | .es => s.es
  | .fs => s.fs
  | .gs => s.gs

/-- `pc <- t`: EIP becomes `t`, nothing else changes (00_scope.md R10). -/
def State.withEip (s : State) (t : Word) : State := { s with eip := t }

/-- CS becomes `c`, selector and hidden part (42_jmp_far.md R249). -/
def State.withCs (s : State) (c : Segment) : State := { s with cs := c }

/-- Memory becomes `m`. No instruction does this (20_memory.md R65); a program is placed with it. -/
def State.withMem (s : State) (m : Memory) : State := { s with mem := m }

/-! ### Memory -/

/-- The byte that a list of cells holds at an address. -/
def Memory.lookup : Memory → Nat → Byte
  | [], _ => Config.unlistedByte
  | (k, v) :: t, a => if k = a then v else Memory.lookup t a

/-- The byte at a linear address (20_memory.md R71: memory is total). -/
def Memory.read (m : Memory) (a : Word) : Byte := Memory.lookup m a.toNat

/-- The cells with the byte at an address replaced, in canonical form. -/
def Memory.insert : Memory → Nat → Byte → Memory
  | [], a, v => if v = Config.unlistedByte then [] else [(a, v)]
  | (k, w) :: t, a, v =>
    if a < k then
      if v = Config.unlistedByte then (k, w) :: t else (a, v) :: (k, w) :: t
    else if a = k then
      if v = Config.unlistedByte then t else (a, v) :: t
    else (k, w) :: Memory.insert t a v

/-- Place a byte at a linear address. -/
def Memory.write (m : Memory) (a : Word) (v : Byte) : Memory := Memory.insert m a.toNat v

/-- Place bytes at consecutive linear addresses, modulo 2^32. -/
def Memory.writeBytes : Memory → Word → List Byte → Memory
  | m, _, [] => m
  | m, a, b :: r => Memory.writeBytes (Memory.write m a b) (a + 1) r

/-- The canonical form from a lowest allowed address: strictly rising addresses below 2^32, no entry that an unlisted
address would read as. -/
def Memory.wfFrom : Nat → Memory → Bool
  | _, [] => true
  | lo, (k, v) :: t =>
    decide (lo ≤ k) && decide (k < 2 ^ 32) && !(v == Config.unlistedByte) && Memory.wfFrom (k + 1) t

/-- The canonical form of memory. -/
def Memory.wf (m : Memory) : Bool := Memory.wfFrom 0 m

/-- The bytes at `n` consecutive linear addresses, modulo 2^32, in address order. -/
def Memory.readBytes (m : Memory) : Word → Nat → List Byte
  | _, 0 => []
  | a, n + 1 => Memory.read m a :: Memory.readBytes m (a + 1) n

/-- The number that bytes in address order stand for, the first the least significant (20_memory.md R62). -/
def leNat : List Byte → Nat
  | [] => 0
  | b :: r => b.toNat + 256 * leNat r

/-- The bytes at linear addresses, with paging off a linear address being the memory address (20_memory.md R60, R69). A
state with paging on is refused at its first read, which is the fetch: DESIGN CHOICE for the place of the test, safe
(log 7). -/
def State.readLinear (s : State) (a : Word) (n : Nat) : Except Stop (List Byte) := do
  orRefuse (!s.pagingEnabled) .pagingOn
  .ok (s.mem.readBytes a n)

/-- `MemRead(addr, n)` (00_scope.md R10; 20_memory.md R62). -/
def State.memRead (s : State) (a : Word) (n : Nat) : Except Stop Nat := do
  let bs ← s.readLinear a n
  .ok (leNat bs)

/-! ### Checked operand reads -/

/-- A null selector: `sel[15:2] = 0` (42_jmp_far.md R245). -/
def isNullSel (sel : Half) : Bool := sel.extractLsb' 2 14 == 0

/-- The descriptor in a segment register is a present code or data segment that can be read and whose valid offsets lie
below its limit, and the selector is not null (20_memory.md R66; AR bits 42_jmp_far.md R246; log 20). -/
def Segment.operandOk (g : Segment) : Bool :=
  !isNullSel g.selector && g.ar.getLsbD 7 && g.ar.getLsbD 4 &&
    (if g.ar.getLsbD 3 then g.ar.getLsbD 1 else !g.ar.getLsbD 2)

/-- `SegAccessOK(seg, off, n)`: no part of the operand lies above the limit, without wrap-around (20_memory.md R66). -/
def Segment.accessOk (g : Segment) (off : Word) (n : Nat) : Bool := decide (off.toNat + n - 1 ≤ g.limit.toNat)

/-- The fault of an operand beyond its segment's limit in Protected Mode (20_memory.md R66). -/
def limitFault (r : SegName) : Fault := if r = .ss then .ss 0 else .gp 0

/-- `SegRead(seg, off, n)`, the checked operand read: 20_memory.md R66 in Protected Mode, R67 in the other two, SS
included (60_exceptions.md R283; log 21). -/
def State.segRead (s : State) (r : SegName) (off : Word) (n : Nat) : Except Stop Nat := do
  match s.mode with
  | .protectedMode => do
    orRefuse (s.seg r).operandOk .illegalOperandSegment
    orRaise ((s.seg r).accessOk off n) (limitFault r)
    s.memRead ((s.seg r).base + off) n
  | _ => do
    orRaise (decide (off.toNat + n - 1 ≤ Config.realOffsetMax)) .interrupt13
    s.memRead ((s.seg r).base + off) n

/-! ### The near transfer -/

/-- `next`: the offset of the instruction that follows `i` (00_scope.md R10, R12). -/
def State.next (s : State) (i : Instr) : Word := s.eip + BitVec.ofNat 32 (instrLength s.cs.size i)

/-- The mask of a target when the operand size is 16 (40_jcc.md R140, R180). -/
def maskTarget (os : Size) (t : Word) : Word :=
  match os with
  | .s16 => t &&& 0x0000FFFF
  | .s32 => t

/-- `NearTarget(t)`: the limit test on the final target, then the jump (41_jmp_near.md R200; 40_jcc.md R140). -/
def State.nearTarget (s : State) (t : Word) : Except Stop State :=
  if t.toNat ≤ s.cs.limit.toNat then .ok (s.withEip t)
  else
    match s.mode with
    | .protectedMode => .error (.raise (.gp 0))
    | _ => .error (.refuse .targetBeyondLimit)

/-- The relative transfer `t <- next + d`, masked when the operand size is 16 (41_jmp_near.md R200). -/
def State.relativeJump (s : State) (os : Size) (next d : Word) : Except Stop State :=
  s.nearTarget (maskTarget os (next + d))

/-- Going on at the following instruction: EIP = `next`, modulo 2^32 and not masked (00_scope.md R11; 92_eei_decisions.md
D24; log 22). A `next` below EIP has run past 2^32 - 1, which the state keeps for the fetch to refuse (20_memory.md R70;
93_implementation_defined.md U4; log 37). -/
def State.fallThrough (s : State) (next : Word) : State :=
  { s.withEip next with pastEnd := s.pastEnd || decide (next.toNat < s.eip.toNat) }

/-- `Jcc(taken, d)` (40_jcc.md R140): a jump not taken goes on at `next` (00_scope.md R11; log 22). -/
def State.condJump (s : State) (taken : Bool) (os : Size) (next d : Word) : Except Stop State :=
  if taken then s.relativeJump os next d else .ok (s.fallThrough next)

end Sys2Proof.Machine
end

