-- ==== Sys2Proof/Machine/Flags.lean ====
section
/-! DEFINITION. The sixteen flag conditions of the conditional jumps. No instruction of the spec computes or writes a flag
(10_state.md R24, R25; 40_jcc.md R142), so reading them is all there is. -/

namespace Sys2Proof.Machine

/-- The condition of 30_encoding.md R93 on the five flags (40_jcc.md R141). For JLE the connective is "or": 90_conflicts.md
C1. -/
def Flags.test (f : Flags) : Cond → Bool
  | .o => f.of
  | .no => !f.of
  | .b => f.cf
  | .ae => !f.cf
  | .e => f.zf
  | .ne => !f.zf
  | .be => f.cf || f.zf
  | .a => !f.cf && !f.zf
  | .s => f.sf
  | .ns => !f.sf
  | .p => f.pf
  | .np => !f.pf
  | .l => f.sf != f.of
  | .ge => f.sf == f.of
  | .le => f.zf || f.sf != f.of
  | .g => !f.zf && f.sf == f.of

end Sys2Proof.Machine
end

