-- ==== Sys2Proof/Machine/Operands.lean ====
section
/-! DEFINITION. The operand forms: effective addresses, the segment an operand uses, and the reads of `r/m` and far-pointer
operands. -/

namespace Sys2Proof.Machine

/-- An 8-bit displacement widened to 32 bits (00_scope.md R10, `sext_8`). -/
def sext8 (d : Byte) : Word := d.signExtend 32

/-- A 16-bit displacement widened to 32 bits (00_scope.md R10, `sext_16`). -/
def sext16 (d : Half) : Word := d.signExtend 32

/-- A 16-bit value widened to 32 bits with zeros (00_scope.md R10, `zext_16`). -/
def zext16 (v : Half) : Word := v.setWidth 32

/-! ### Effective addresses -/

/-- The register part of a 16-bit effective address (30_encoding.md R101). -/
def State.base16 (s : State) : Base16 → Half
  | .bxSi => s.reg16 .ebx + s.reg16 .esi
  | .bxDi => s.reg16 .ebx + s.reg16 .edi
  | .bpSi => s.reg16 .ebp + s.reg16 .esi
  | .bpDi => s.reg16 .ebp + s.reg16 .edi
  | .si => s.reg16 .esi
  | .di => s.reg16 .edi
  | .bp => s.reg16 .ebp
  | .bx => s.reg16 .ebx

/-- The displacement of a 16-bit effective address, `disp8` sign-extended to 16 bits (30_encoding.md R101). -/
def dispValue16 : Disp16 → Half
  | .none => 0
  | .d8 d => d.signExtend 16
  | .d16 d => d

/-- The displacement of a 32-bit effective address, `disp8` sign-extended to 32 bits (30_encoding.md R102). -/
def dispValue32 : Disp32 → Word
  | .none => 0
  | .d8 d => sext8 d
  | .d32 d => d

/-- The scaled index of a SIB byte: no index gives 0 whatever the scale (30_encoding.md R103). -/
def State.scaledIndex (s : State) (scale : BitVec 2) : Option Reg → Word
  | none => 0
  | some r => s.reg r <<< scale.toNat

/-- The 32-bit offset of a memory operand: modulo 2^16 and zero-extended under 16-bit addressing, modulo 2^32 under 32-bit
addressing (30_encoding.md R101 to R103). -/
def State.effectiveOffset (s : State) : Addr → Word
  | .base16 b d => zext16 (s.base16 b + dispValue16 d)
  | .direct16 d => zext16 d
  | .base32 r d => s.reg r + dispValue32 d
  | .direct32 d => d
  | .sib scale index base d => s.reg base + s.scaledIndex scale index + dispValue32 d
  | .sibDirect scale index d => s.scaledIndex scale index + d

/-- The default segment of a 32-bit base register: SS for ESP and EBP (30_encoding.md R102, R103). -/
def defaultSeg32 : Reg → SegName
  | .esp => .ss
  | .ebp => .ss
  | .eax => .ds
  | .ecx => .ds
  | .edx => .ds
  | .ebx => .ds
  | .esi => .ds
  | .edi => .ds

/-- The default segment of a 16-bit register part: SS where BP takes part (30_encoding.md R101). -/
def defaultSeg16 : Base16 → SegName
  | .bpSi => .ss
  | .bpDi => .ss
  | .bp => .ss
  | .bxSi => .ds
  | .bxDi => .ds
  | .si => .ds
  | .di => .ds
  | .bx => .ds

/-- The default segment of an address (30_encoding.md R101 to R103; 20_memory.md R68). -/
def defaultSeg : Addr → SegName
  | .base16 b _ => defaultSeg16 b
  | .direct16 _ => .ds
  | .base32 r _ => defaultSeg32 r
  | .direct32 _ => .ds
  | .sib _ _ base _ => defaultSeg32 base
  | .sibDirect .. => .ds

/-- The segment of a memory operand: the override when there is one (30_encoding.md R104). -/
def operandSeg (m : MemOp) : SegName :=
  match m.override with
  | some r => r
  | none => defaultSeg m.addr

/-- The `n` bytes of a memory operand as a number: `SegRead` at `EA(modrm)` (00_scope.md R10). -/
def State.readMemOp (s : State) (m : MemOp) (n : Nat) : Except Stop Nat :=
  s.segRead (operandSeg m) (s.effectiveOffset m.addr) n

/-! ### Operand values -/

/-- The value of `r/m16`: the low half of a register, or 2 bytes of memory (41_jmp_near.md R204). -/
def State.readRm16 (s : State) : RM → Except Stop Half
  | .reg r => .ok (s.reg16 r)
  | .mem m => do
    let v ← s.readMemOp m 2
    .ok (BitVec.ofNat 16 v)

/-- The value of `r/m32`: a register, or 4 bytes of memory (41_jmp_near.md R205). -/
def State.readRm32 (s : State) : RM → Except Stop Word
  | .reg r => .ok (s.reg r)
  | .mem m => do
    let v ← s.readMemOp m 4
    .ok (BitVec.ofNat 32 v)

/-- A long pointer: the selector for CS and the offset for EIP, zero-extended when it has 16 bits (42_jmp_far.md R230). -/
structure FarPointer where
  sel : Half
  off : Word
deriving DecidableEq, Repr

/-- The pointer at `m16:16`: the offset in bytes 0 and 1, the selector in bytes 2 and 3 (20_memory.md R63; 42_jmp_far.md
R233). -/
def State.readPointer1616 (s : State) (m : MemOp) : Except Stop FarPointer := do
  let v ← s.readMemOp m 4
  .ok { sel := BitVec.ofNat 16 (v / 2 ^ 16), off := zext16 (BitVec.ofNat 16 v) }

/-- The pointer at `m16:32`: the offset in bytes 0 to 3, the selector in bytes 4 and 5 (20_memory.md R63; 42_jmp_far.md
R234). -/
def State.readPointer1632 (s : State) (m : MemOp) : Except Stop FarPointer := do
  let v ← s.readMemOp m 6
  .ok { sel := BitVec.ofNat 16 (v / 2 ^ 32), off := BitVec.ofNat 32 v }

end Sys2Proof.Machine
end

