-- ==== Sys2Proof/Machine/JccNear.lean ====
section
/-! DEFINITION. The near conditional jumps, opcodes 0F 80 to 0F 8F, with 16-bit and 32-bit displacements (40_jcc.md R163 to
R178). -/

namespace Sys2Proof.Machine

/-- JO rel16 (40_jcc.md R163). -/
def execJORel16 (rel : Half) (s : State) : Host.Outcome State Fault Refusal :=
  finish (s.condJump (s.flags.test .o) .s16 (s.next (.jORel16 rel)) (sext16 rel))

/-- JO rel32 (40_jcc.md R163). -/
def execJORel32 (rel : Word) (s : State) : Host.Outcome State Fault Refusal :=
  finish (s.condJump (s.flags.test .o) .s32 (s.next (.jORel32 rel)) rel)

/-- JNO rel16 (40_jcc.md R164). -/
def execJNoRel16 (rel : Half) (s : State) : Host.Outcome State Fault Refusal :=
  finish (s.condJump (s.flags.test .no) .s16 (s.next (.jNoRel16 rel)) (sext16 rel))

/-- JNO rel32 (40_jcc.md R164). -/
def execJNoRel32 (rel : Word) (s : State) : Host.Outcome State Fault Refusal :=
  finish (s.condJump (s.flags.test .no) .s32 (s.next (.jNoRel32 rel)) rel)

/-- JB (JC, JNAE) rel16 (40_jcc.md R165). -/
def execJBRel16 (rel : Half) (s : State) : Host.Outcome State Fault Refusal :=
  finish (s.condJump (s.flags.test .b) .s16 (s.next (.jBRel16 rel)) (sext16 rel))

/-- JB (JC, JNAE) rel32 (40_jcc.md R165). -/
def execJBRel32 (rel : Word) (s : State) : Host.Outcome State Fault Refusal :=
  finish (s.condJump (s.flags.test .b) .s32 (s.next (.jBRel32 rel)) rel)

/-- JAE (JNB, JNC) rel16 (40_jcc.md R166). -/
def execJAeRel16 (rel : Half) (s : State) : Host.Outcome State Fault Refusal :=
  finish (s.condJump (s.flags.test .ae) .s16 (s.next (.jAeRel16 rel)) (sext16 rel))

/-- JAE (JNB, JNC) rel32 (40_jcc.md R166). -/
def execJAeRel32 (rel : Word) (s : State) : Host.Outcome State Fault Refusal :=
  finish (s.condJump (s.flags.test .ae) .s32 (s.next (.jAeRel32 rel)) rel)

/-- JE (JZ) rel16 (40_jcc.md R167). -/
def execJERel16 (rel : Half) (s : State) : Host.Outcome State Fault Refusal :=
  finish (s.condJump (s.flags.test .e) .s16 (s.next (.jERel16 rel)) (sext16 rel))

/-- JE (JZ) rel32 (40_jcc.md R167). -/
def execJERel32 (rel : Word) (s : State) : Host.Outcome State Fault Refusal :=
  finish (s.condJump (s.flags.test .e) .s32 (s.next (.jERel32 rel)) rel)

/-- JNE (JNZ) rel16 (40_jcc.md R168). -/
def execJNeRel16 (rel : Half) (s : State) : Host.Outcome State Fault Refusal :=
  finish (s.condJump (s.flags.test .ne) .s16 (s.next (.jNeRel16 rel)) (sext16 rel))

/-- JNE (JNZ) rel32 (40_jcc.md R168). -/
def execJNeRel32 (rel : Word) (s : State) : Host.Outcome State Fault Refusal :=
  finish (s.condJump (s.flags.test .ne) .s32 (s.next (.jNeRel32 rel)) rel)

/-- JBE (JNA) rel16 (40_jcc.md R169). -/
def execJBeRel16 (rel : Half) (s : State) : Host.Outcome State Fault Refusal :=
  finish (s.condJump (s.flags.test .be) .s16 (s.next (.jBeRel16 rel)) (sext16 rel))

/-- JBE (JNA) rel32 (40_jcc.md R169). -/
def execJBeRel32 (rel : Word) (s : State) : Host.Outcome State Fault Refusal :=
  finish (s.condJump (s.flags.test .be) .s32 (s.next (.jBeRel32 rel)) rel)

/-- JA (JNBE) rel16 (40_jcc.md R170). -/
def execJARel16 (rel : Half) (s : State) : Host.Outcome State Fault Refusal :=
  finish (s.condJump (s.flags.test .a) .s16 (s.next (.jARel16 rel)) (sext16 rel))

/-- JA (JNBE) rel32 (40_jcc.md R170). -/
def execJARel32 (rel : Word) (s : State) : Host.Outcome State Fault Refusal :=
  finish (s.condJump (s.flags.test .a) .s32 (s.next (.jARel32 rel)) rel)

/-- JS rel16 (40_jcc.md R171). -/
def execJSRel16 (rel : Half) (s : State) : Host.Outcome State Fault Refusal :=
  finish (s.condJump (s.flags.test .s) .s16 (s.next (.jSRel16 rel)) (sext16 rel))

/-- JS rel32 (40_jcc.md R171). -/
def execJSRel32 (rel : Word) (s : State) : Host.Outcome State Fault Refusal :=
  finish (s.condJump (s.flags.test .s) .s32 (s.next (.jSRel32 rel)) rel)

/-- JNS rel16 (40_jcc.md R172). -/
def execJNsRel16 (rel : Half) (s : State) : Host.Outcome State Fault Refusal :=
  finish (s.condJump (s.flags.test .ns) .s16 (s.next (.jNsRel16 rel)) (sext16 rel))

/-- JNS rel32 (40_jcc.md R172). -/
def execJNsRel32 (rel : Word) (s : State) : Host.Outcome State Fault Refusal :=
  finish (s.condJump (s.flags.test .ns) .s32 (s.next (.jNsRel32 rel)) rel)

/-- JP (JPE) rel16 (40_jcc.md R173). -/
def execJPRel16 (rel : Half) (s : State) : Host.Outcome State Fault Refusal :=
  finish (s.condJump (s.flags.test .p) .s16 (s.next (.jPRel16 rel)) (sext16 rel))

/-- JP (JPE) rel32 (40_jcc.md R173). -/
def execJPRel32 (rel : Word) (s : State) : Host.Outcome State Fault Refusal :=
  finish (s.condJump (s.flags.test .p) .s32 (s.next (.jPRel32 rel)) rel)

/-- JNP (JPO) rel16 (40_jcc.md R174). -/
def execJNpRel16 (rel : Half) (s : State) : Host.Outcome State Fault Refusal :=
  finish (s.condJump (s.flags.test .np) .s16 (s.next (.jNpRel16 rel)) (sext16 rel))

/-- JNP (JPO) rel32 (40_jcc.md R174). -/
def execJNpRel32 (rel : Word) (s : State) : Host.Outcome State Fault Refusal :=
  finish (s.condJump (s.flags.test .np) .s32 (s.next (.jNpRel32 rel)) rel)

/-- JL (JNGE) rel16 (40_jcc.md R175). -/
def execJLRel16 (rel : Half) (s : State) : Host.Outcome State Fault Refusal :=
  finish (s.condJump (s.flags.test .l) .s16 (s.next (.jLRel16 rel)) (sext16 rel))

/-- JL (JNGE) rel32 (40_jcc.md R175). -/
def execJLRel32 (rel : Word) (s : State) : Host.Outcome State Fault Refusal :=
  finish (s.condJump (s.flags.test .l) .s32 (s.next (.jLRel32 rel)) rel)

/-- JGE (JNL) rel16 (40_jcc.md R176). -/
def execJGeRel16 (rel : Half) (s : State) : Host.Outcome State Fault Refusal :=
  finish (s.condJump (s.flags.test .ge) .s16 (s.next (.jGeRel16 rel)) (sext16 rel))

/-- JGE (JNL) rel32 (40_jcc.md R176). -/
def execJGeRel32 (rel : Word) (s : State) : Host.Outcome State Fault Refusal :=
  finish (s.condJump (s.flags.test .ge) .s32 (s.next (.jGeRel32 rel)) rel)

/-- JLE (JNG) rel16 (40_jcc.md R177). -/
def execJLeRel16 (rel : Half) (s : State) : Host.Outcome State Fault Refusal :=
  finish (s.condJump (s.flags.test .le) .s16 (s.next (.jLeRel16 rel)) (sext16 rel))

/-- JLE (JNG) rel32 (40_jcc.md R177). -/
def execJLeRel32 (rel : Word) (s : State) : Host.Outcome State Fault Refusal :=
  finish (s.condJump (s.flags.test .le) .s32 (s.next (.jLeRel32 rel)) rel)

/-- JG (JNLE) rel16 (40_jcc.md R178). -/
def execJGRel16 (rel : Half) (s : State) : Host.Outcome State Fault Refusal :=
  finish (s.condJump (s.flags.test .g) .s16 (s.next (.jGRel16 rel)) (sext16 rel))

/-- JG (JNLE) rel32 (40_jcc.md R178). -/
def execJGRel32 (rel : Word) (s : State) : Host.Outcome State Fault Refusal :=
  finish (s.condJump (s.flags.test .g) .s32 (s.next (.jGRel32 rel)) rel)

end Sys2Proof.Machine
end

