-- ==== Sys2Proof/Machine/JccShort.lean ====
section
/-! DEFINITION. The short conditional jumps, opcodes 70 to 7F, and JCXZ and JECXZ, opcode E3 (40_jcc.md R145 to R162). -/

namespace Sys2Proof.Machine

/-- JO rel8 (40_jcc.md R145). -/
def execJORel8 (os : Size) (rel : Byte) (s : State) : Host.Outcome State Fault Refusal :=
  finish (s.condJump (s.flags.test .o) os (s.next (.jORel8 os rel)) (sext8 rel))

/-- JNO rel8 (40_jcc.md R146). -/
def execJNoRel8 (os : Size) (rel : Byte) (s : State) : Host.Outcome State Fault Refusal :=
  finish (s.condJump (s.flags.test .no) os (s.next (.jNoRel8 os rel)) (sext8 rel))

/-- JB (JC, JNAE) rel8 (40_jcc.md R147). -/
def execJBRel8 (os : Size) (rel : Byte) (s : State) : Host.Outcome State Fault Refusal :=
  finish (s.condJump (s.flags.test .b) os (s.next (.jBRel8 os rel)) (sext8 rel))

/-- JAE (JNB, JNC) rel8 (40_jcc.md R148). -/
def execJAeRel8 (os : Size) (rel : Byte) (s : State) : Host.Outcome State Fault Refusal :=
  finish (s.condJump (s.flags.test .ae) os (s.next (.jAeRel8 os rel)) (sext8 rel))

/-- JE (JZ) rel8 (40_jcc.md R149). -/
def execJERel8 (os : Size) (rel : Byte) (s : State) : Host.Outcome State Fault Refusal :=
  finish (s.condJump (s.flags.test .e) os (s.next (.jERel8 os rel)) (sext8 rel))

/-- JNE (JNZ) rel8 (40_jcc.md R150). -/
def execJNeRel8 (os : Size) (rel : Byte) (s : State) : Host.Outcome State Fault Refusal :=
  finish (s.condJump (s.flags.test .ne) os (s.next (.jNeRel8 os rel)) (sext8 rel))

/-- JBE (JNA) rel8 (40_jcc.md R151). -/
def execJBeRel8 (os : Size) (rel : Byte) (s : State) : Host.Outcome State Fault Refusal :=
  finish (s.condJump (s.flags.test .be) os (s.next (.jBeRel8 os rel)) (sext8 rel))

/-- JA (JNBE) rel8 (40_jcc.md R152). -/
def execJARel8 (os : Size) (rel : Byte) (s : State) : Host.Outcome State Fault Refusal :=
  finish (s.condJump (s.flags.test .a) os (s.next (.jARel8 os rel)) (sext8 rel))

/-- JS rel8 (40_jcc.md R153). -/
def execJSRel8 (os : Size) (rel : Byte) (s : State) : Host.Outcome State Fault Refusal :=
  finish (s.condJump (s.flags.test .s) os (s.next (.jSRel8 os rel)) (sext8 rel))

/-- JNS rel8 (40_jcc.md R154). -/
def execJNsRel8 (os : Size) (rel : Byte) (s : State) : Host.Outcome State Fault Refusal :=
  finish (s.condJump (s.flags.test .ns) os (s.next (.jNsRel8 os rel)) (sext8 rel))

/-- JP (JPE) rel8 (40_jcc.md R155). -/
def execJPRel8 (os : Size) (rel : Byte) (s : State) : Host.Outcome State Fault Refusal :=
  finish (s.condJump (s.flags.test .p) os (s.next (.jPRel8 os rel)) (sext8 rel))

/-- JNP (JPO) rel8 (40_jcc.md R156). -/
def execJNpRel8 (os : Size) (rel : Byte) (s : State) : Host.Outcome State Fault Refusal :=
  finish (s.condJump (s.flags.test .np) os (s.next (.jNpRel8 os rel)) (sext8 rel))

/-- JL (JNGE) rel8 (40_jcc.md R157). -/
def execJLRel8 (os : Size) (rel : Byte) (s : State) : Host.Outcome State Fault Refusal :=
  finish (s.condJump (s.flags.test .l) os (s.next (.jLRel8 os rel)) (sext8 rel))

/-- JGE (JNL) rel8 (40_jcc.md R158). -/
def execJGeRel8 (os : Size) (rel : Byte) (s : State) : Host.Outcome State Fault Refusal :=
  finish (s.condJump (s.flags.test .ge) os (s.next (.jGeRel8 os rel)) (sext8 rel))

/-- JLE (JNG) rel8 (40_jcc.md R159). -/
def execJLeRel8 (os : Size) (rel : Byte) (s : State) : Host.Outcome State Fault Refusal :=
  finish (s.condJump (s.flags.test .le) os (s.next (.jLeRel8 os rel)) (sext8 rel))

/-- JG (JNLE) rel8 (40_jcc.md R160). -/
def execJGRel8 (os : Size) (rel : Byte) (s : State) : Host.Outcome State Fault Refusal :=
  finish (s.condJump (s.flags.test .g) os (s.next (.jGRel8 os rel)) (sext8 rel))

/-- JCXZ rel8: taken when CX is 0 (40_jcc.md R161). -/
def execJcxzRel8 (os : Size) (rel : Byte) (s : State) : Host.Outcome State Fault Refusal :=
  finish (s.condJump (s.reg16 .ecx == 0) os (s.next (.jcxzRel8 os rel)) (sext8 rel))

/-- JECXZ rel8: taken when ECX is 0 (40_jcc.md R162). -/
def execJecxzRel8 (os : Size) (rel : Byte) (s : State) : Host.Outcome State Fault Refusal :=
  finish (s.condJump (s.reg .ecx == 0) os (s.next (.jecxzRel8 os rel)) (sext8 rel))

end Sys2Proof.Machine
end

