-- ==== Sys2Proof/Machine/Descriptors.lean ====
section
/-! DEFINITION. Selectors, descriptors, gates and the descriptor tables (42_jmp_far.md R245 to R248). All of these formats
are general knowledge that the spec supplies (log 17). -/

namespace Sys2Proof.Machine

/-! ### Selectors (42_jmp_far.md R245) -/

/-- The index, bits 15:3. -/
def selIndex (sel : Half) : Nat := (sel.extractLsb' 3 13).toNat

/-- The local/global bit, bit 2: true for the local table. -/
def isLocalSel (sel : Half) : Bool := sel.getLsbD 2

/-- The requested privilege level, bits 1:0. -/
def selRpl (sel : Half) : BitVec 2 := sel.extractLsb' 0 2

/-- The selector with its RPL field set to a level. -/
def withRpl (sel : Half) (level : BitVec 2) : Half := sel.extractLsb' 2 14 ++ level

/-! ### Descriptor and gate fields (42_jmp_far.md R246, R247) -/

/-- Byte `k` of the eight. -/
def Descriptor.byte (d : Descriptor) (k : Nat) : Byte := d.raw.extractLsb' (8 * k) 8

/-- The Access Rights byte, byte 5. -/
def Descriptor.ar (d : Descriptor) : Byte := d.byte 5

/-- The base: bytes 2, 3, 4 and 7. -/
def Descriptor.base (d : Descriptor) : Word := d.byte 7 ++ d.byte 4 ++ d.byte 3 ++ d.byte 2

/-- `Limit20`: bytes 0 and 1 and the low nibble of byte 6. -/
def Descriptor.limit20 (d : Descriptor) : BitVec 20 := (d.byte 6).extractLsb' 0 4 ++ d.byte 1 ++ d.byte 0

/-- The limit: in bytes when G = 0, in 4096-byte units when G = 1. -/
def Descriptor.limit (d : Descriptor) : Word :=
  if (d.byte 6).getLsbD 7 then BitVec.ofNat 32 (d.limit20.toNat * 4096 + 4095) else d.limit20.setWidth 32

/-- The size attribute: 32 when D = 1. -/
def Descriptor.size (d : Descriptor) : Size := if (d.byte 6).getLsbD 6 then .s32 else .s16

/-- The P bit of an Access Rights byte. -/
def arPresent (ar : Byte) : Bool := ar.getLsbD 7

/-- The descriptor privilege level of an Access Rights byte, bits 6:5. -/
def arDpl (ar : Byte) : BitVec 2 := ar.extractLsb' 5 2

/-- The selector in a gate: bytes 2 and 3. -/
def Descriptor.gateSelector (d : Descriptor) : Half := d.byte 3 ++ d.byte 2

/-- The offset in a gate: bytes 0, 1, 6 and 7 (42_jmp_far.md R247). Bytes 6 and 7 are taken as they are for every gate kind;
the rule calls them zero in a 16-bit gate and does not say what a 16-bit gate with other bytes there gives. DESIGN CHOICE,
unsafe (log 36). -/
def Descriptor.gateOffset (d : Descriptor) : Word := d.byte 7 ++ d.byte 6 ++ d.byte 1 ++ d.byte 0

/-! ### Kinds (42_jmp_far.md R248) -/

/-- The five kinds that a protected far JMP may name, and the rest. -/
inductive Kind where
  | conformingCode
  | nonConformingCode
  | callGate
  | taskGate
  | taskStateSegment
  | other
deriving DecidableEq, Repr

/-- The kind of a system descriptor or gate by its four type bits (S = 0). -/
def systemKind (type : Nat) : Kind :=
  match type with
  | 1 => .taskStateSegment
  | 3 => .taskStateSegment
  | 4 => .callGate
  | 5 => .taskGate
  | 9 => .taskStateSegment
  | 11 => .taskStateSegment
  | 12 => .callGate
  | _ => .other

/-- `Kind(ar)` from bits 4:0 of the Access Rights byte. -/
def arKind (ar : Byte) : Kind :=
  if ar.getLsbD 4 then
    if ar.getLsbD 3 then (if ar.getLsbD 2 then .conformingCode else .nonConformingCode) else .other
  else systemKind (ar.extractLsb' 0 4).toNat

/-- `AvailableTSS(ar)`: bottom bits 00001 or 01001 (90_conflicts.md C3). -/
def arAvailableTss (ar : Byte) : Bool := ar.extractLsb' 0 5 == 0x01 || ar.extractLsb' 0 5 == 0x09

/-! ### The tables (42_jmp_far.md R245; 10_state.md R30) -/

/-- The table that a selector names. -/
def State.tableOf (s : State) (sel : Half) : TableReg := if isLocalSel sel then s.ldtr else s.gdtr

/-- The entry lies within its table's limit. -/
def TableReg.holds (t : TableReg) (index : Nat) : Bool := decide (8 * index + 7 ≤ t.limit.toNat)

/-- `DescriptorLookup(sel)`: nothing when the index is outside the table, else the eight bytes of the entry. -/
def State.descriptorLookup (s : State) (sel : Half) : Except Stop (Option Descriptor) :=
  if (s.tableOf sel).holds (selIndex sel) then do
    let v ← s.memRead ((s.tableOf sel).base + BitVec.ofNat 32 (8 * selIndex sel)) 8
    .ok (some { raw := BitVec.ofNat 64 v })
  else .ok none

/-- The descriptor of a selector, or the exception of a selector outside its table: "index is within its descriptor table
limits ELSE #GP(selector)". -/
def State.descriptorOrGp (s : State) (sel : Half) : Except Stop Descriptor := do
  let d ← s.descriptorLookup sel
  match d with
  | some d => .ok d
  | none => .error (.raise (.gp sel))

end Sys2Proof.Machine
end

