-- ==== Sys2Proof/Machine/FarTransfer.lean ====
section
/-! DEFINITION. The far transfer that the four far JMP forms share (42_jmp_far.md R230, R236 to R242). Each check stands in
the order of the spec's pseudocode, and the first that fails decides the exception (60_exceptions.md R287; log 29). The
relations that the source lost are the spec's (92_eei_decisions.md D12; log 16). -/

namespace Sys2Proof.Machine

/-- `LoadCS(sel, d)` and then `pc <- t` (42_jmp_far.md R249). -/
def State.loadCs (s : State) (sel : Half) (d : Descriptor) (t : Word) : State :=
  (s.withCs { selector := sel, base := d.base, limit := d.limit, ar := d.ar, size := d.size }).withEip t

/-- "Instruction pointer must be within code-segment limit ELSE #GP(0)", then the load of CS with its RPL field set to CPL
and of EIP (42_jmp_far.md R249, R250; on the conforming path the RPL is log 18). -/
def State.enterCode (s : State) (sel : Half) (d : Descriptor) (t : Word) : Except Stop State := do
  orRaise (decide (t.toNat ≤ d.limit.toNat)) (.gp 0)
  .ok (s.loadCs (withRpl sel s.cpl) d t)

/-- The real or V86 path (42_jmp_far.md R236): CS.base is `sel * 16`, the rest of the hidden part stays (log 15). -/
def State.farRealV86 (s : State) (os : Size) (p : FarPointer) : Except Stop State := do
  orRefuse (decide ((maskTarget os p.off).toNat ≤ Config.realOffsetMax)) .targetBeyondLimit
  .ok ((s.withCs { s.cs with selector := p.sel, base := zext16 p.sel * 16 }).withEip (maskTarget os p.off))

/-- CONFORMING-CODE-SEGMENT (42_jmp_far.md R238). -/
def State.farConforming (s : State) (os : Size) (p : FarPointer) (d : Descriptor) : Except Stop State := do
  orRaise (decide ((arDpl d.ar).toNat ≤ s.cpl.toNat)) (.gp p.sel)
  orRaise (arPresent d.ar) (.np p.sel)
  s.enterCode p.sel d (maskTarget os p.off)

/-- NONCONFORMING-CODE-SEGMENT (42_jmp_far.md R239). -/
def State.farNonConforming (s : State) (os : Size) (p : FarPointer) (d : Descriptor) : Except Stop State := do
  orRaise (decide ((selRpl p.sel).toNat ≤ s.cpl.toNat)) (.gp p.sel)
  orRaise (arDpl d.ar == s.cpl) (.gp p.sel)
  orRaise (arPresent d.ar) (.np p.sel)
  s.enterCode p.sel d (maskTarget os p.off)

/-- The privilege and presence checks of a gate: its DPL is at least CPL and the selector's RPL (42_jmp_far.md R240,
R241). -/
def State.gateChecks (s : State) (gsel : Half) (g : Descriptor) : Except Stop Unit := do
  orRaise (decide (s.cpl.toNat ≤ (arDpl g.ar).toNat)) (.gp gsel)
  orRaise (decide ((selRpl gsel).toNat ≤ (arDpl g.ar).toNat)) (.gp gsel)
  orRaise (arPresent g.ar) (.np gsel)

/-- The privilege check of the code segment that a call gate names (42_jmp_far.md R240). -/
def State.gateTargetOk (s : State) (c : Descriptor) : Bool :=
  match arKind c.ar with
  | .conformingCode => decide ((arDpl c.ar).toNat ≤ s.cpl.toNat)
  | .nonConformingCode => arDpl c.ar == s.cpl
  | _ => false

/-- CALL-GATE (42_jmp_far.md R240): the pointer's offset is not used, the width of the gate's offset follows the operand
size (93_implementation_defined.md U10; log 23). A target that is no code segment and one that fails its privilege check
both raise #GP(CS selector), so one test covers the three lines of the pseudocode. -/
def State.farCallGate (s : State) (os : Size) (gsel : Half) (g : Descriptor) : Except Stop State := do
  s.gateChecks gsel g
  orRaise (!isNullSel g.gateSelector) (.gp 0)
  let c ← s.descriptorOrGp g.gateSelector
  orRaise (s.gateTargetOk c) (.gp g.gateSelector)
  orRaise (arPresent c.ar) (.np g.gateSelector)
  s.enterCode g.gateSelector c (maskTarget os g.gateOffset)

/-- The checks of a TSS descriptor that both task paths end with, then SWITCH-TASKS, which no source defines: the step is
refused (42_jmp_far.md R241, R242, R252; log 6). -/
def State.switchTasks (tsel : Half) (d : Descriptor) : Except Stop State := do
  orRaise (arAvailableTss d.ar) (.gp tsel)
  orRaise (arPresent d.ar) (.np tsel)
  .error (.refuse .taskSwitch)

/-- TASK-GATE (42_jmp_far.md R241): the TSS selector in the gate must be global. -/
def State.farTaskGate (s : State) (gsel : Half) (g : Descriptor) : Except Stop State := do
  s.gateChecks gsel g
  orRaise (!isLocalSel g.gateSelector) (.gp g.gateSelector)
  let d ← s.descriptorOrGp g.gateSelector
  State.switchTasks g.gateSelector d

/-- TASK-STATE-SEGMENT (42_jmp_far.md R242): the local/global bit is not tested (log 34). -/
def State.farTss (s : State) (tsel : Half) (d : Descriptor) : Except Stop State := do
  orRaise (decide (s.cpl.toNat ≤ (arDpl d.ar).toNat)) (.gp tsel)
  orRaise (decide ((selRpl tsel).toNat ≤ (arDpl d.ar).toNat)) (.gp tsel)
  State.switchTasks tsel d

/-- The protected path (42_jmp_far.md R237): the common checks, then the path that the AR byte selects. -/
def State.farProtected (s : State) (os : Size) (p : FarPointer) : Except Stop State := do
  orRaise (!isNullSel p.sel) (.gp 0)
  let d ← s.descriptorOrGp p.sel
  match arKind d.ar with
  | .conformingCode => s.farConforming os p d
  | .nonConformingCode => s.farNonConforming os p d
  | .callGate => s.farCallGate os p.sel d
  | .taskGate => s.farTaskGate p.sel d
  | .taskStateSegment => s.farTss p.sel d
  | .other => .error (.raise (.gp p.sel))

/-- `FarJmp(sel, off)` (42_jmp_far.md R230). -/
def State.farJump (s : State) (os : Size) (p : FarPointer) : Except Stop State :=
  match s.mode with
  | .protectedMode => s.farProtected os p
  | _ => s.farRealV86 os p

end Sys2Proof.Machine
end

