-- ==== Sys2Proof/Machine/JmpFar.lean ====
section
/-! DEFINITION. The far forms of JMP (42_jmp_far.md R231 to R234). -/

namespace Sys2Proof.Machine

/-- JMP ptr16:16 (42_jmp_far.md R231). -/
def execJmpPtr1616 (off sel : Half) (s : State) : Host.Outcome State Fault Refusal :=
  finish (s.farJump .s16 { sel := sel, off := zext16 off })

/-- JMP ptr16:32 (42_jmp_far.md R232). -/
def execJmpPtr1632 (off : Word) (sel : Half) (s : State) : Host.Outcome State Fault Refusal :=
  finish (s.farJump .s32 { sel := sel, off := off })

/-- JMP m16:16: the operand is read first, then the far transfer (42_jmp_far.md R233). -/
def execJmpM1616 (m : MemOp) (s : State) : Host.Outcome State Fault Refusal :=
  finish (do
    let p ← s.readPointer1616 m
    s.farJump .s16 p)

/-- JMP m16:32: the operand is read first, then the far transfer (42_jmp_far.md R234). -/
def execJmpM1632 (m : MemOp) (s : State) : Host.Outcome State Fault Refusal :=
  finish (do
    let p ← s.readPointer1632 m
    s.farJump .s32 p)

end Sys2Proof.Machine
end

