-- ==== Sys2Proof/Machine/JmpNear.lean ====
section
/-! DEFINITION. The near forms of JMP (41_jmp_near.md). -/

namespace Sys2Proof.Machine

/-- JMP rel8 (41_jmp_near.md R201). -/
def execJmpRel8 (os : Size) (rel : Byte) (s : State) : Host.Outcome State Fault Refusal :=
  finish (s.relativeJump os (s.next (.jmpRel8 os rel)) (sext8 rel))

/-- JMP rel16 (41_jmp_near.md R202). -/
def execJmpRel16 (rel : Half) (s : State) : Host.Outcome State Fault Refusal :=
  finish (s.relativeJump .s16 (s.next (.jmpRel16 rel)) (sext16 rel))

/-- JMP rel32 (41_jmp_near.md R203). -/
def execJmpRel32 (rel : Word) (s : State) : Host.Outcome State Fault Refusal :=
  finish (s.relativeJump .s32 (s.next (.jmpRel32 rel)) rel)

/-- JMP r/m16: the operand is read first, then the zero-extended target is tested (41_jmp_near.md R204, R206). -/
def execJmpRm16 (op : RM) (s : State) : Host.Outcome State Fault Refusal :=
  finish (do
    let v ← s.readRm16 op
    s.nearTarget (zext16 v))

/-- JMP r/m32: the operand is read first, then the target is tested (41_jmp_near.md R205, R206). -/
def execJmpRm32 (op : RM) (s : State) : Host.Outcome State Fault Refusal :=
  finish (do
    let v ← s.readRm32 op
    s.nearTarget v)

end Sys2Proof.Machine
end

