-- ==== Sys2Proof/Machine/Dispatch.lean ====
section
/-! DEFINITION. The dispatch: one arm per instruction, one direct call of its meaning. -/

namespace Sys2Proof.Machine

def exec (i : Instr) (s : State) : Host.Outcome State Fault Refusal :=
  match i with
  | .jORel8 os rel => Sys2Proof.Machine.execJORel8 os rel s
  | .jNoRel8 os rel => Sys2Proof.Machine.execJNoRel8 os rel s
  | .jBRel8 os rel => Sys2Proof.Machine.execJBRel8 os rel s
  | .jAeRel8 os rel => Sys2Proof.Machine.execJAeRel8 os rel s
  | .jERel8 os rel => Sys2Proof.Machine.execJERel8 os rel s
  | .jNeRel8 os rel => Sys2Proof.Machine.execJNeRel8 os rel s
  | .jBeRel8 os rel => Sys2Proof.Machine.execJBeRel8 os rel s
  | .jARel8 os rel => Sys2Proof.Machine.execJARel8 os rel s
  | .jSRel8 os rel => Sys2Proof.Machine.execJSRel8 os rel s
  | .jNsRel8 os rel => Sys2Proof.Machine.execJNsRel8 os rel s
  | .jPRel8 os rel => Sys2Proof.Machine.execJPRel8 os rel s
  | .jNpRel8 os rel => Sys2Proof.Machine.execJNpRel8 os rel s
  | .jLRel8 os rel => Sys2Proof.Machine.execJLRel8 os rel s
  | .jGeRel8 os rel => Sys2Proof.Machine.execJGeRel8 os rel s
  | .jLeRel8 os rel => Sys2Proof.Machine.execJLeRel8 os rel s
  | .jGRel8 os rel => Sys2Proof.Machine.execJGRel8 os rel s
  | .jcxzRel8 os rel => Sys2Proof.Machine.execJcxzRel8 os rel s
  | .jecxzRel8 os rel => Sys2Proof.Machine.execJecxzRel8 os rel s
  | .jORel16 rel => Sys2Proof.Machine.execJORel16 rel s
  | .jORel32 rel => Sys2Proof.Machine.execJORel32 rel s
  | .jNoRel16 rel => Sys2Proof.Machine.execJNoRel16 rel s
  | .jNoRel32 rel => Sys2Proof.Machine.execJNoRel32 rel s
  | .jBRel16 rel => Sys2Proof.Machine.execJBRel16 rel s
  | .jBRel32 rel => Sys2Proof.Machine.execJBRel32 rel s
  | .jAeRel16 rel => Sys2Proof.Machine.execJAeRel16 rel s
  | .jAeRel32 rel => Sys2Proof.Machine.execJAeRel32 rel s
  | .jERel16 rel => Sys2Proof.Machine.execJERel16 rel s
  | .jERel32 rel => Sys2Proof.Machine.execJERel32 rel s
  | .jNeRel16 rel => Sys2Proof.Machine.execJNeRel16 rel s
  | .jNeRel32 rel => Sys2Proof.Machine.execJNeRel32 rel s
  | .jBeRel16 rel => Sys2Proof.Machine.execJBeRel16 rel s
  | .jBeRel32 rel => Sys2Proof.Machine.execJBeRel32 rel s
  | .jARel16 rel => Sys2Proof.Machine.execJARel16 rel s
  | .jARel32 rel => Sys2Proof.Machine.execJARel32 rel s
  | .jSRel16 rel => Sys2Proof.Machine.execJSRel16 rel s
  | .jSRel32 rel => Sys2Proof.Machine.execJSRel32 rel s
  | .jNsRel16 rel => Sys2Proof.Machine.execJNsRel16 rel s
  | .jNsRel32 rel => Sys2Proof.Machine.execJNsRel32 rel s
  | .jPRel16 rel => Sys2Proof.Machine.execJPRel16 rel s
  | .jPRel32 rel => Sys2Proof.Machine.execJPRel32 rel s
  | .jNpRel16 rel => Sys2Proof.Machine.execJNpRel16 rel s
  | .jNpRel32 rel => Sys2Proof.Machine.execJNpRel32 rel s
  | .jLRel16 rel => Sys2Proof.Machine.execJLRel16 rel s
  | .jLRel32 rel => Sys2Proof.Machine.execJLRel32 rel s
  | .jGeRel16 rel => Sys2Proof.Machine.execJGeRel16 rel s
  | .jGeRel32 rel => Sys2Proof.Machine.execJGeRel32 rel s
  | .jLeRel16 rel => Sys2Proof.Machine.execJLeRel16 rel s
  | .jLeRel32 rel => Sys2Proof.Machine.execJLeRel32 rel s
  | .jGRel16 rel => Sys2Proof.Machine.execJGRel16 rel s
  | .jGRel32 rel => Sys2Proof.Machine.execJGRel32 rel s
  | .jmpRel8 os rel => Sys2Proof.Machine.execJmpRel8 os rel s
  | .jmpRel16 rel => Sys2Proof.Machine.execJmpRel16 rel s
  | .jmpRel32 rel => Sys2Proof.Machine.execJmpRel32 rel s
  | .jmpRm16 op => Sys2Proof.Machine.execJmpRm16 op s
  | .jmpRm32 op => Sys2Proof.Machine.execJmpRm32 op s
  | .jmpPtr1616 off sel => Sys2Proof.Machine.execJmpPtr1616 off sel s
  | .jmpPtr1632 off sel => Sys2Proof.Machine.execJmpPtr1632 off sel s
  | .jmpM1616 m => Sys2Proof.Machine.execJmpM1616 m s
  | .jmpM1632 m => Sys2Proof.Machine.execJmpM1632 m s

end Sys2Proof.Machine
end

