-- ==== Sys2Proof/Machine/Fetch.lean ====
section
/-! DEFINITION. Instruction fetch, and the placing of one instruction where fetch reads (20_memory.md R70). -/

namespace Sys2Proof.Machine

/-- How many bytes from EIP on may be fetched: those at offsets up to CS.limit, without wrapping past 2^32 - 1, and no
more than the longest instruction; none when sequential execution has run past 2^32 - 1 (20_memory.md R70;
92_eei_decisions.md D29; 93_implementation_defined.md U4; log 37). -/
def State.fetchable (s : State) : Nat :=
  if s.pastEnd then 0 else min Config.maxInstrBytes (s.cs.limit.toNat + 1 - s.eip.toNat)

/-- The linear address of the next instruction (20_memory.md R70). -/
def State.fetchAddress (s : State) : Word := s.cs.base + s.eip

/-- The stop of bytes that decode to no instruction: a missing byte lies beyond the limit (20_memory.md R70; log 8), an
unknown encoding is refused (30_encoding.md R108), the illegal one raises (R106). -/
def rejectStop : Reject → Stop
  | .truncated => .refuse .fetchBeyondLimit
  | .notInSpec => .refuse .notInSpec
  | .invalidOpcode => .raise .invalidOpcode

/-- Fetch and decode the bytes at CS:EIP (00_scope.md R11; 30_encoding.md R90). -/
def State.fetch (s : State) : Except Stop Instr := do
  let bs ← s.readLinear s.fetchAddress s.fetchable
  match decode s.cs.size bs with
  | .ok (i, _) => .ok i
  | .error r => .error (rejectStop r)

/-- The state with an instruction of the opcode table placed where fetch reads, in a code segment of the size attribute
under which the table's row is read, and with no mark of a run past 2^32 - 1 (log 27, log 37). -/
def State.placeTableWord (s : State) (nbits w : Nat) : State :=
  { (s.withCs { s.cs with size := tableSize nbits w }).withMem
      (s.mem.writeBytes s.fetchAddress (tableBytes nbits w)) with pastEnd := false }

end Sys2Proof.Machine
end

