-- ==== Sys2Proof/Safety.lean ====
section
/-! DEFINITION. The terms in which claims are stated: reading outcomes, start states, the end of a run, and the invariants
that the rules promise. -/

namespace Sys2Proof.Machine

/-! ### Reading an outcome -/

/-- The next state of an outcome, if it has one. -/
def nextState : Host.Outcome State Fault Refusal → Option State
  | .next s => some s
  | .fault _ => none
  | .refused _ => none

/-- The exception of an outcome, if it is one. -/
def faultOf : Host.Outcome State Fault Refusal → Option Fault
  | .next _ => none
  | .fault f => some f
  | .refused _ => none

/-- The refusal of an outcome, if it is one. -/
def refusalOf : Host.Outcome State Fault Refusal → Option Refusal
  | .next _ => none
  | .fault _ => none
  | .refused r => some r

/-! ### Segment registers, read apart from the machine's own operations -/

/-- The segment register that a name stands for (10_state.md R28). -/
def segmentNamed (s : State) : SegName → Segment
  | .cs => s.cs
  | .ss => s.ss
  | .ds => s.ds
  | .es => s.es
  | .fs => s.fs
  | .gs => s.gs

/-- A segment that an operand may lie in, in Protected Mode, by bits: the selector is none of the null values 0 to 3 (bits
15:2), the Access Rights byte has P (bit 7) and S (bit 4) set, and its type is readable code (11x1x: 13, 15 without bit 0) or
expand-up data (100xx: 8, 9 without bit 0), the accessed bit of either value (20_memory.md R66, the spec's decision D23, log
20; the bits are 42_jmp_far.md R245 and R246, log 17). -/
def usableSegment (g : Segment) : Bool :=
  decide (4 ≤ g.selector.toNat) && decide (128 ≤ g.ar.toNat) && [8, 9, 13, 15].contains (g.ar.toNat / 2 % 16)

/-! ### Invariants -/

/-- The hidden part of CS in Real Address Mode and V86 mode: base `selector * 16`, limit FFFFH, 16-bit
(70_reset_and_hazards.md R321). -/
def Segment.realShape (c : Segment) : Bool :=
  c.base == c.selector.setWidth 32 * 16 && c.limit == 0x0000FFFF && c.size == .s16

/-- CPL is the RPL of CS (10_state.md R29; 70_reset_and_hazards.md R321). -/
def State.cplIsRpl (s : State) : Bool := selRpl s.cs.selector == s.cpl

/-- The Access Rights byte names a present code segment that a program at the level may run in: conforming with DPL at most
CPL, or non-conforming with DPL equal to CPL (42_jmp_far.md R238, R239). -/
def codeFits (ar : Byte) (cpl : BitVec 2) : Bool :=
  arPresent ar &&
    (match arKind ar with
    | .conformingCode => decide ((arDpl ar).toNat ≤ cpl.toNat)
    | .nonConformingCode => arDpl ar == cpl
    | _ => false)

/-- CS holds a segment that fits CPL, its RPL being CPL. -/
def State.csFits (s : State) : Bool := s.cplIsRpl && codeFits s.cs.ar s.cpl

/-- What 70_reset_and_hazards.md R321 asks of CS and CPL in each mode. -/
def State.modeConsistent (s : State) : Bool :=
  match s.mode with
  | .real => s.cs.realShape && s.cpl == 0
  | .v86 => s.cs.realShape && s.cpl == 3
  | .protectedMode => s.cplIsRpl

/-- The operand segments are usable in Protected Mode (20_memory.md R66; 70_reset_and_hazards.md R321). -/
def State.operandSegmentsOk (s : State) : Bool :=
  match s.mode with
  | .protectedMode => [SegName.cs, .ss, .ds, .es, .fs, .gs].all fun r => usableSegment (segmentNamed s r)
  | _ => true

/-- An admitted start state (70_reset_and_hazards.md R321), every segment register taken as one an operand may use. -/
def State.admitted (s : State) : Bool :=
  !s.pagingEnabled && !s.pastEnd && s.modeConsistent && decide (s.eip.toNat ≤ s.cs.limit.toNat) && s.operandSegmentsOk &&
    Memory.wf s.mem

/-! ### The end of a run (70_reset_and_hazards.md R322) -/

/-- A designated END point: a selector and an offset. -/
structure EndPoint where
  sel : Half
  off : Word
deriving DecidableEq, Repr

/-- CS and EIP are at one of the END points. -/
def State.atEnd (ends : List EndPoint) (s : State) : Bool :=
  ends.any fun e => e.sel == s.cs.selector && e.off == s.eip

/-- The ways a run ends within a number of steps; `running` is a run that has not ended yet. A fault carries the state it
is taken in, which the faulting instruction has not changed (60_exceptions.md R284). -/
inductive RunEnd where
  | done (s : State)
  | fault (f : Fault) (s : State)
  | outside (r : Refusal) (s : State)
  | running (s : State)
deriving DecidableEq, Repr

/-- Run at most a number of steps towards the END points: the instruction at an END point is not executed. -/
def run (ends : List EndPoint) : Nat → State → RunEnd
  | 0, s => if s.atEnd ends then .done s else .running s
  | k + 1, s =>
    if s.atEnd ends then .done s
    else
      match step s with
      | .next s' => run ends k s'
      | .fault f => .fault f s
      | .refused r => .outside r s

/-! ### Relative jumps, read from the spec's tables (30_encoding.md R93, R99) -/

/-- What the spec's tables say of a relative jump in a state: the operand size, the displacement as a signed number, whether
it tests a condition, and whether it jumps. -/
structure RelativeJump where
  os : Size
  disp : Int
  conditional : Bool
  taken : Bool
deriving DecidableEq, Repr

/-- The relative jumps: the conditions are those of 30_encoding.md R93 and 40_jcc.md R161, R162; a JMP always jumps. -/
def relativeJump (s : State) : Instr → Option RelativeJump
  | .jORel8 os rel => some ⟨os, rel.toInt, true, s.flags.of == true⟩
  | .jNoRel8 os rel => some ⟨os, rel.toInt, true, s.flags.of == false⟩
  | .jBRel8 os rel => some ⟨os, rel.toInt, true, s.flags.cf == true⟩
  | .jAeRel8 os rel => some ⟨os, rel.toInt, true, s.flags.cf == false⟩
  | .jERel8 os rel => some ⟨os, rel.toInt, true, s.flags.zf == true⟩
  | .jNeRel8 os rel => some ⟨os, rel.toInt, true, s.flags.zf == false⟩
  | .jBeRel8 os rel => some ⟨os, rel.toInt, true, s.flags.cf == true || s.flags.zf == true⟩
  | .jARel8 os rel => some ⟨os, rel.toInt, true, s.flags.cf == false && s.flags.zf == false⟩
  | .jSRel8 os rel => some ⟨os, rel.toInt, true, s.flags.sf == true⟩
  | .jNsRel8 os rel => some ⟨os, rel.toInt, true, s.flags.sf == false⟩
  | .jPRel8 os rel => some ⟨os, rel.toInt, true, s.flags.pf == true⟩
  | .jNpRel8 os rel => some ⟨os, rel.toInt, true, s.flags.pf == false⟩
  | .jLRel8 os rel => some ⟨os, rel.toInt, true, s.flags.sf != s.flags.of⟩
  | .jGeRel8 os rel => some ⟨os, rel.toInt, true, s.flags.sf == s.flags.of⟩
  | .jLeRel8 os rel => some ⟨os, rel.toInt, true, s.flags.zf == true || s.flags.sf != s.flags.of⟩
  | .jGRel8 os rel => some ⟨os, rel.toInt, true, s.flags.zf == false && s.flags.sf == s.flags.of⟩
  | .jcxzRel8 os rel => some ⟨os, rel.toInt, true, s.regs.ecx.toNat % 65536 == 0⟩
  | .jecxzRel8 os rel => some ⟨os, rel.toInt, true, s.regs.ecx.toNat == 0⟩
  | .jORel16 rel => some ⟨.s16, rel.toInt, true, s.flags.of == true⟩
  | .jORel32 rel => some ⟨.s32, rel.toInt, true, s.flags.of == true⟩
  | .jNoRel16 rel => some ⟨.s16, rel.toInt, true, s.flags.of == false⟩
  | .jNoRel32 rel => some ⟨.s32, rel.toInt, true, s.flags.of == false⟩
  | .jBRel16 rel => some ⟨.s16, rel.toInt, true, s.flags.cf == true⟩
  | .jBRel32 rel => some ⟨.s32, rel.toInt, true, s.flags.cf == true⟩
  | .jAeRel16 rel => some ⟨.s16, rel.toInt, true, s.flags.cf == false⟩
  | .jAeRel32 rel => some ⟨.s32, rel.toInt, true, s.flags.cf == false⟩
  | .jERel16 rel => some ⟨.s16, rel.toInt, true, s.flags.zf == true⟩
  | .jERel32 rel => some ⟨.s32, rel.toInt, true, s.flags.zf == true⟩
  | .jNeRel16 rel => some ⟨.s16, rel.toInt, true, s.flags.zf == false⟩
  | .jNeRel32 rel => some ⟨.s32, rel.toInt, true, s.flags.zf == false⟩
  | .jBeRel16 rel => some ⟨.s16, rel.toInt, true, s.flags.cf == true || s.flags.zf == true⟩
  | .jBeRel32 rel => some ⟨.s32, rel.toInt, true, s.flags.cf == true || s.flags.zf == true⟩
  | .jARel16 rel => some ⟨.s16, rel.toInt, true, s.flags.cf == false && s.flags.zf == false⟩
  | .jARel32 rel => some ⟨.s32, rel.toInt, true, s.flags.cf == false && s.flags.zf == false⟩
  | .jSRel16 rel => some ⟨.s16, rel.toInt, true, s.flags.sf == true⟩
  | .jSRel32 rel => some ⟨.s32, rel.toInt, true, s.flags.sf == true⟩
  | .jNsRel16 rel => some ⟨.s16, rel.toInt, true, s.flags.sf == false⟩
  | .jNsRel32 rel => some ⟨.s32, rel.toInt, true, s.flags.sf == false⟩
  | .jPRel16 rel => some ⟨.s16, rel.toInt, true, s.flags.pf == true⟩
  | .jPRel32 rel => some ⟨.s32, rel.toInt, true, s.flags.pf == true⟩
  | .jNpRel16 rel => some ⟨.s16, rel.toInt, true, s.flags.pf == false⟩
  | .jNpRel32 rel => some ⟨.s32, rel.toInt, true, s.flags.pf == false⟩
  | .jLRel16 rel => some ⟨.s16, rel.toInt, true, s.flags.sf != s.flags.of⟩
  | .jLRel32 rel => some ⟨.s32, rel.toInt, true, s.flags.sf != s.flags.of⟩
  | .jGeRel16 rel => some ⟨.s16, rel.toInt, true, s.flags.sf == s.flags.of⟩
  | .jGeRel32 rel => some ⟨.s32, rel.toInt, true, s.flags.sf == s.flags.of⟩
  | .jLeRel16 rel => some ⟨.s16, rel.toInt, true, s.flags.zf == true || s.flags.sf != s.flags.of⟩
  | .jLeRel32 rel => some ⟨.s32, rel.toInt, true, s.flags.zf == true || s.flags.sf != s.flags.of⟩
  | .jGRel16 rel => some ⟨.s16, rel.toInt, true, s.flags.zf == false && s.flags.sf == s.flags.of⟩
  | .jGRel32 rel => some ⟨.s32, rel.toInt, true, s.flags.zf == false && s.flags.sf == s.flags.of⟩
  | .jmpRel8 os rel => some ⟨os, rel.toInt, false, true⟩
  | .jmpRel16 rel => some ⟨.s16, rel.toInt, false, true⟩
  | .jmpRel32 rel => some ⟨.s32, rel.toInt, false, true⟩
  | .jmpRm16 _ => none
  | .jmpRm32 _ => none
  | .jmpPtr1616 _ _ => none
  | .jmpPtr1632 _ _ => none
  | .jmpM1616 _ => none
  | .jmpM1632 _ => none

/-- The number of offsets of an operand size: 64K or 4G (40_jcc.md R180). -/
def offsetModulus : Size → Int
  | .s16 => 65536
  | .s32 => 4294967296

/-- The offset of the instruction that follows, as an exact number (00_scope.md R10). -/
def followingOffset (s : State) (i : Instr) : Int := (s.eip.toNat : Int) + instrLength s.cs.size i

/-- The target of a relative jump: the exact sum, reduced to the operand size (40_jcc.md R140, R180, R182). -/
def relativeTarget (s : State) (i : Instr) (j : RelativeJump) : Nat :=
  ((followingOffset s i + j.disp) % offsetModulus j.os).toNat

/-- How far back a relative jump reaches: 128, 32768 or 2^31 bytes (40_jcc.md R179). -/
def reachOf (i : Instr) : Int :=
  match i.form with
  | .jccNear16 .. => 32768
  | .jmpNear16 _ => 32768
  | .jccNear32 .. => 2147483648
  | .jmpNear32 _ => 2147483648
  | _ => 128

/-- Going on at the following instruction: its offset modulo 2^32, not masked, the spec's decision D24, log 22, and the
model's own mark when the exact offset is 2^32 or more, log 37. -/
def following (s : State) (i : Instr) : State :=
  { s with
    eip := BitVec.ofInt 32 (followingOffset s i)
    pastEnd := s.pastEnd || decide (4294967296 ≤ followingOffset s i) }

/-- The outcome of a relative jump: the following instruction when its condition does not hold; otherwise its target when
that is within CS.limit, #GP(0) beyond it in Protected Mode, and a refusal beyond it in the other two modes (40_jcc.md R140,
R143; 41_jmp_near.md R206; the refusal is the spec's decision D8, log 5). -/
def relativeOutcome (s : State) (i : Instr) (j : RelativeJump) : Host.Outcome State Fault Refusal :=
  if j.taken = false then .next (following s i)
  else if relativeTarget s i j ≤ s.cs.limit.toNat then .next { s with eip := BitVec.ofNat 32 (relativeTarget s i j) }
  else if s.mode = .protectedMode then .fault (.gp 0)
  else .refused .targetBeyondLimit

/-- `FF /4` through memory, by operand size (30_encoding.md R97). -/
def jmpThrough : Size → MemOp → Instr
  | .s16, m => .jmpRm16 (.mem m)
  | .s32, m => .jmpRm32 (.mem m)

/-- `FF /5`, by operand size (30_encoding.md R97). -/
def farJmpThrough : Size → MemOp → Instr
  | .s16, m => .jmpM1616 m
  | .s32, m => .jmpM1632 m

/-- The instruction of opcode E3 or FF with the other operand size, its address and its displacement as they are
(30_encoding.md R94, R97, R105). -/
def otherOperandSize : Instr → Instr
  | .jcxzRel8 os rel => .jcxzRel8 os.other rel
  | .jecxzRel8 os rel => .jecxzRel8 os.other rel
  | .jmpRm16 op => .jmpRm32 op
  | .jmpRm32 op => .jmpRm16 op
  | .jmpM1616 m => .jmpM1632 m
  | .jmpM1632 m => .jmpM1616 m
  | i => i

/-! ### Prefix bytes and address tables, read from 30_encoding.md R101 to R104 -/

/-- The segment override bytes and the segments they name (30_encoding.md R104). -/
def overrideTable : List (Byte × SegName) :=
  [(0x2E, .cs), (0x36, .ss), (0x3E, .ds), (0x26, .es), (0x64, .fs), (0x65, .gs)]

/-- The segment override bytes (30_encoding.md R104). -/
def overrideBytes : List Byte := [0x2E, 0x36, 0x3E, 0x26, 0x64, 0x65]

/-- The prefix bytes of the spec (30_encoding.md R104). -/
def prefixBytes : List Byte := 0x66 :: 0x67 :: overrideBytes

/-- A conditional jump on flags, a relative JMP or a direct far JMP by its first opcode byte (30_encoding.md R92, R95, R96,
R98): neither an address size nor a segment acts on it. -/
def isPlainOpcode (op : Byte) : Bool := decide (op.toNat / 16 = 7) || [0x0F, 0xE9, 0xEA, 0xEB].contains op

/-- Bytes after the prefixes that 30_encoding.md R90 maps to no instruction (R108): an opcode byte that is no prefix and
none of 70 to 7F, 0F, E3, E9, EA, EB and FF; 0F with a second byte outside 80 to 8F; and FF with a ModR/M byte whose `reg`
field is neither 4 nor 5, whatever its `mod`. -/
def isUnmapped : List Byte → Bool
  | [op] => !prefixBytes.contains op && !isPlainOpcode op && op != 0xE3 && op != 0xFF
  | [op, b] =>
    (op == 0x0F && decide (b.toNat / 16 ≠ 8)) ||
      (op == 0xFF && decide (b.toNat / 8 % 8 ≠ 4) && decide (b.toNat / 8 % 8 ≠ 5))
  | _ => false

/-- The value of the general register with a number (10_state.md R20). -/
def registerValue (s : State) (n : BitVec 3) : Nat :=
  match n.toNat with
  | 0 => s.regs.eax.toNat
  | 1 => s.regs.ecx.toNat
  | 2 => s.regs.edx.toNat
  | 3 => s.regs.ebx.toNat
  | 4 => s.regs.esp.toNat
  | 5 => s.regs.ebp.toNat
  | 6 => s.regs.esi.toNat
  | _ => s.regs.edi.toNat

/-- The sum of the 16-bit registers that `rm` names (30_encoding.md R101). -/
def registerSum16 (s : State) (rm : BitVec 3) : Nat :=
  match rm.toNat with
  | 0 => s.regs.ebx.toNat % 65536 + s.regs.esi.toNat % 65536
  | 1 => s.regs.ebx.toNat % 65536 + s.regs.edi.toNat % 65536
  | 2 => s.regs.ebp.toNat % 65536 + s.regs.esi.toNat % 65536
  | 3 => s.regs.ebp.toNat % 65536 + s.regs.edi.toNat % 65536
  | 4 => s.regs.esi.toNat % 65536
  | 5 => s.regs.edi.toNat % 65536
  | 6 => s.regs.ebp.toNat % 65536
  | _ => s.regs.ebx.toNat % 65536

/-- The value of a SIB index with its scale: index field 4 means none (30_encoding.md R103). -/
def indexPart (s : State) (scale : BitVec 2) (index : BitVec 3) : Nat :=
  if index = 4 then 0 else registerValue s index * 2 ^ scale.toNat

/-- The number in four bytes, the first the least significant (20_memory.md R62). -/
def word32 (b0 b1 b2 b3 : Byte) : Nat := b0.toNat + 256 * b1.toNat + 65536 * b2.toNat + 16777216 * b3.toNat

/-- Bytes decode to a near indirect JMP through a memory operand with an offset and a segment, all of them read. -/
def jumpsThrough (cs : Size) (s : State) (bs : List Byte) (off : Nat) (r : SegName) : Prop :=
  ∃ m : MemOp, decode cs bs = .ok (jmpThrough cs m, []) ∧ (s.effectiveOffset m.addr).toNat = off ∧ operandSeg m = r

/-! ### Memory operands -/

/-- The number in `n` bytes of memory, the byte at the lowest address the least significant (20_memory.md R62). -/
def byteSum (s : State) (a : Word) (n : Nat) : Nat :=
  ((List.range n).map fun k => (Memory.read s.mem (a + BitVec.ofNat 32 k)).toNat * 256 ^ k).sum

/-- The memory operand of an instruction and its width in bytes (20_memory.md R65). -/
def memoryOperand : Instr → Option (MemOp × Nat)
  | .jmpRm16 (.mem m) => some (m, 2)
  | .jmpRm32 (.mem m) => some (m, 4)
  | .jmpM1616 m => some (m, 4)
  | .jmpM1632 m => some (m, 6)
  | _ => none

/-- The segment register that a memory operand is read through (20_memory.md R68). -/
def operandSegment (s : State) (m : MemOp) : Segment := segmentNamed s (operandSeg m)

/-- The last offset of a memory operand, without wrap-around (20_memory.md R66, R67). -/
def lastOffset (s : State) (m : MemOp) (n : Nat) : Nat := (s.effectiveOffset m.addr).toNat + n - 1

/-- A memory operand that the rules let an instruction read: paging off, and the conditions of 20_memory.md R66 in
Protected Mode or R67 in the other two. -/
def readable (s : State) (m : MemOp) (n : Nat) : Bool :=
  !s.pagingEnabled &&
    (if s.mode = .protectedMode then
      usableSegment (operandSegment s m) && decide (lastOffset s m n ≤ (operandSegment s m).limit.toNat)
    else decide (lastOffset s m n ≤ 0xFFFF))

/-- The linear address of a memory operand (20_memory.md R60). -/
def operandAddress (s : State) (m : MemOp) : Word := (operandSegment s m).base + s.effectiveOffset m.addr

/-- The new offset that a near indirect JMP reads (41_jmp_near.md R204, R205). -/
def nearOperand (s : State) : Instr → Option Nat
  | .jmpRm16 (.reg r) => some ((s.reg r).toNat % 65536)
  | .jmpRm32 (.reg r) => some (s.reg r).toNat
  | .jmpRm16 (.mem m) => if readable s m 2 then some (byteSum s (operandAddress s m) 2) else none
  | .jmpRm32 (.mem m) => if readable s m 4 then some (byteSum s (operandAddress s m) 4) else none
  | _ => none

/-- The long pointer of a far JMP: operand size, selector, offset (20_memory.md R63; 42_jmp_far.md R230 to R234). -/
structure LongPointer where
  os : Size
  sel : Half
  off : Nat
deriving DecidableEq, Repr

/-- The long pointer that a far JMP takes from the instruction or reads from memory: little-endian and the offset lower, the
spec's decisions D3 and D4, log 12; all 4 or 6 bytes must be readable, 90_conflicts.md C7, log 32. -/
def farOperand (s : State) : Instr → Option LongPointer
  | .jmpPtr1616 off sel => some ⟨.s16, sel, off.toNat⟩
  | .jmpPtr1632 off sel => some ⟨.s32, sel, off.toNat⟩
  | .jmpM1616 m =>
    if readable s m 4 then
      some ⟨.s16, BitVec.ofNat 16 (byteSum s (operandAddress s m + 2) 2), byteSum s (operandAddress s m) 2⟩
    else none
  | .jmpM1632 m =>
    if readable s m 6 then
      some ⟨.s32, BitVec.ofNat 16 (byteSum s (operandAddress s m + 4) 2), byteSum s (operandAddress s m) 4⟩
    else none
  | _ => none

/-- The near JMP forms (00_scope.md R13). -/
def isNearJmp : Instr → Bool
  | .jmpRel8 .. => true
  | .jmpRel16 _ => true
  | .jmpRel32 _ => true
  | .jmpRm16 _ => true
  | .jmpRm32 _ => true
  | _ => false

/-- The far JMP forms (00_scope.md R13). -/
def isFarJmp : Instr → Bool
  | .jmpPtr1616 .. => true
  | .jmpPtr1632 .. => true
  | .jmpM1616 _ => true
  | .jmpM1632 _ => true
  | _ => false

/-! ### Descriptor-table entries, byte by byte (42_jmp_far.md R245 to R248) -/

/-- The table that a selector's bit 2 names. -/
def entryTable (s : State) (sel : Half) : TableReg := if sel.toNat / 4 % 2 = 1 then s.ldtr else s.gdtr

/-- The selector is not one of the null values 0 to 3. -/
def notNull (sel : Half) : Bool := decide (4 ≤ sel.toNat)

/-- The eight bytes of the selector's entry lie within its table. -/
def entryInTable (s : State) (sel : Half) : Bool :=
  decide (8 * (sel.toNat / 8) + 7 ≤ (entryTable s sel).limit.toNat)

/-- Byte `k` of the selector's entry. -/
def entryByte (s : State) (sel : Half) (k : Nat) : Nat :=
  (Memory.read s.mem ((entryTable s sel).base + BitVec.ofNat 32 (8 * (sel.toNat / 8) + k))).toNat

/-- Bits 4:0 of the Access Rights byte. -/
def entryType (s : State) (sel : Half) : Nat := entryByte s sel 5 % 32

/-- Bits 6:5 of the Access Rights byte. -/
def entryDpl (s : State) (sel : Half) : Nat := entryByte s sel 5 / 32 % 4

/-- Bit 7 of the Access Rights byte. -/
def entryPresent (s : State) (sel : Half) : Bool := decide (128 ≤ entryByte s sel 5)

/-- The limit of a segment entry, with its granularity. -/
def entryLimit (s : State) (sel : Half) : Nat :=
  let limit20 := entryByte s sel 0 + 256 * entryByte s sel 1 + 65536 * (entryByte s sel 6 % 16)
  if 128 ≤ entryByte s sel 6 then limit20 * 4096 + 4095 else limit20

/-- The base of a segment entry. -/
def entryBase (s : State) (sel : Half) : Nat :=
  entryByte s sel 2 + 256 * entryByte s sel 3 + 65536 * entryByte s sel 4 + 16777216 * entryByte s sel 7

/-- The size attribute of a segment entry. -/
def entrySize (s : State) (sel : Half) : Size := if entryByte s sel 6 / 64 % 2 = 1 then .s32 else .s16

/-- The selector in a gate entry. -/
def entryGateSelector (s : State) (sel : Half) : Half :=
  BitVec.ofNat 16 (entryByte s sel 2 + 256 * entryByte s sel 3)

/-- The offset in a gate entry, of which a 16-bit transfer takes the low 16 bits (42_jmp_far.md R240); bytes 6 and 7 are
taken as they are in a 16-bit gate too, DESIGN CHOICE, unsafe (log 36). -/
def entryGateOffset (s : State) (sel : Half) (os : Size) : Nat :=
  let off := entryByte s sel 0 + 256 * entryByte s sel 1 + 65536 * entryByte s sel 6 + 16777216 * entryByte s sel 7
  match os with
  | .s16 => off % 65536
  | .s32 => off

/-- CS loaded from the selector's entry, its RPL field set to CPL (42_jmp_far.md R249). -/
def codeSegmentOf (s : State) (sel : Half) : Segment :=
  { selector := BitVec.ofNat 16 (sel.toNat / 4 * 4 + s.cpl.toNat)
    base := BitVec.ofNat 32 (entryBase s sel)
    limit := BitVec.ofNat 32 (entryLimit s sel)
    ar := BitVec.ofNat 8 (entryByte s sel 5)
    size := entrySize s sel }

/-! ### Outcomes as functions -/

/-- The outcome with its next state changed by a function, a stop left as it is. -/
def mapNext (f : State → State) : Host.Outcome State Fault Refusal → Host.Outcome State Fault Refusal
  | .next s => .next (f s)
  | .fault r => .fault r
  | .refused r => .refused r

/-- The machine as its rules keep it: memory canonical, paging off, in Protected Mode a code segment that fits CPL, in the
other two modes the limit and size of a 16-bit segment (10_state.md R29; 20_memory.md R69; 70_reset_and_hazards.md R321). -/
def State.sound (s : State) : Bool :=
  Memory.wf s.mem && !s.pagingEnabled &&
    (if s.mode = .protectedMode then s.csFits else s.cs.limit == 0x0000FFFF && s.cs.size == .s16)

end Sys2Proof.Machine
end

