-- ==== Sys2Proof/Certificates/Slice0/Obligations.lean ====
section
/-! DEFINITION. The statements for the provers, from the numbered rules of spec/. The helpers that they name stand in
Sys2Proof/Safety.lean, written from the rules by exact arithmetic on bytes and numbers, apart from the machine's own
operations. -/

open Sys2Proof Sys2Proof.Machine

/-! ### Encoding -/

/-- Decoding the bytes of a well-formed instruction gives it back, whatever bytes follow (30_encoding.md R90 to R105; the
ModR/M, SIB and prefix encodings are the spec's general knowledge, log 11, log 12). -/
def Obligations.DecodeOfEncodeIsIdentity : Prop :=
  ∀ (cs : Size) (i : Instr) (rest : List Byte), i.wellFormed = true → decode cs (encode cs i ++ rest) = .ok (i, rest)

/-- What decodes is well-formed, and takes exactly its length in bytes (30_encoding.md R91). -/
def Obligations.DecodedIsWellFormedAndTakesItsLength : Prop :=
  ∀ (cs : Size) (bs rest : List Byte) (i : Instr), decode cs bs = .ok (i, rest) →
    i.wellFormed = true ∧ bs.length = instrLength cs i + rest.length

/-- The short and the near conditional jumps in the byte layouts of 30_encoding.md R92 and R95: opcode nibble 7 or second
opcode byte nibble 8, then the condition number, then the displacement of the operand size, low byte first. The last two
clauses are the table of R93, opcode byte by opcode byte. The byte order is the spec's decision D3, log 12; that the operand
size alone picks the form is 90_conflicts.md C4, log 32. -/
def Obligations.ConditionalOpcodesDecode : Prop :=
  (∀ (cs : Size) (cc : BitVec 4) (rest : List Byte),
    (∀ rel : Byte, decode cs ((7#4 ++ cc) :: rel :: rest) = .ok (Instr.jccShort (Cond.ofCode cc) cs rel, rest)) ∧
      (∀ b0 b1 : Byte, decode .s16 (0x0F :: (8#4 ++ cc) :: b0 :: b1 :: rest) =
        .ok (Instr.jccNear16 (Cond.ofCode cc) (b1 ++ b0), rest)) ∧
      (∀ b0 b1 b2 b3 : Byte, decode .s32 (0x0F :: (8#4 ++ cc) :: b0 :: b1 :: b2 :: b3 :: rest) =
        .ok (Instr.jccNear32 (Cond.ofCode cc) (b3 ++ b2 ++ b1 ++ b0), rest))) ∧
    (∀ row ∈ ([(0x70, Instr.jORel8), (0x71, Instr.jNoRel8), (0x72, Instr.jBRel8), (0x73, Instr.jAeRel8),
        (0x74, Instr.jERel8), (0x75, Instr.jNeRel8), (0x76, Instr.jBeRel8), (0x77, Instr.jARel8),
        (0x78, Instr.jSRel8), (0x79, Instr.jNsRel8), (0x7A, Instr.jPRel8), (0x7B, Instr.jNpRel8),
        (0x7C, Instr.jLRel8), (0x7D, Instr.jGeRel8), (0x7E, Instr.jLeRel8), (0x7F, Instr.jGRel8)] :
        List (Byte × (Size → Byte → Instr))),
      ∀ (cs : Size) (rel : Byte) (rest : List Byte), decode cs (row.1 :: rel :: rest) = .ok (row.2 cs rel, rest)) ∧
    (∀ row ∈ ([(0x80, Instr.jORel16, Instr.jORel32), (0x81, Instr.jNoRel16, Instr.jNoRel32),
        (0x82, Instr.jBRel16, Instr.jBRel32), (0x83, Instr.jAeRel16, Instr.jAeRel32),
        (0x84, Instr.jERel16, Instr.jERel32), (0x85, Instr.jNeRel16, Instr.jNeRel32),
        (0x86, Instr.jBeRel16, Instr.jBeRel32), (0x87, Instr.jARel16, Instr.jARel32),
        (0x88, Instr.jSRel16, Instr.jSRel32), (0x89, Instr.jNsRel16, Instr.jNsRel32),
        (0x8A, Instr.jPRel16, Instr.jPRel32), (0x8B, Instr.jNpRel16, Instr.jNpRel32),
        (0x8C, Instr.jLRel16, Instr.jLRel32), (0x8D, Instr.jGeRel16, Instr.jGeRel32),
        (0x8E, Instr.jLeRel16, Instr.jLeRel32), (0x8F, Instr.jGRel16, Instr.jGRel32)] :
        List (Byte × (Half → Instr) × (Word → Instr))),
      ∀ (b0 b1 b2 b3 : Byte) (rest : List Byte),
        decode .s16 (0x0F :: row.1 :: b0 :: b1 :: rest) = .ok (row.2.1 (b1 ++ b0), rest) ∧
          decode .s32 (0x0F :: row.1 :: b0 :: b1 :: b2 :: b3 :: rest) = .ok (row.2.2 (b3 ++ b2 ++ b1 ++ b0), rest))

/-- The other opcodes of 30_encoding.md, byte by byte and for every operand: E3 by the address size, with and without prefix
67 (R94; the register it tests is the spec's decision D6, log 13, the prefix log 11), EB, and E9 by the operand size (R96),
and EA by the operand size, the offset before the selector (R98). The byte order and the order of the pointer's parts are
the spec's decisions D3 and D4, log 12; that the operand size alone picks the form is 90_conflicts.md C4, log 32. -/
def Obligations.CountAndUnconditionalOpcodesDecode : Prop :=
  ∀ rest : List Byte,
    (∀ rel : Byte, decode .s16 (0xE3 :: rel :: rest) = .ok (.jcxzRel8 .s16 rel, rest) ∧
      decode .s32 (0xE3 :: rel :: rest) = .ok (.jecxzRel8 .s32 rel, rest) ∧
      decode .s16 (0x67 :: 0xE3 :: rel :: rest) = .ok (.jecxzRel8 .s16 rel, rest) ∧
      decode .s32 (0x67 :: 0xE3 :: rel :: rest) = .ok (.jcxzRel8 .s32 rel, rest)) ∧
    (∀ (cs : Size) (rel : Byte), decode cs (0xEB :: rel :: rest) = .ok (.jmpRel8 cs rel, rest)) ∧
    (∀ b0 b1 : Byte, decode .s16 (0xE9 :: b0 :: b1 :: rest) = .ok (.jmpRel16 (b1 ++ b0), rest)) ∧
    (∀ b0 b1 b2 b3 : Byte,
      decode .s32 (0xE9 :: b0 :: b1 :: b2 :: b3 :: rest) = .ok (.jmpRel32 (b3 ++ b2 ++ b1 ++ b0), rest)) ∧
    (∀ b0 b1 s0 s1 : Byte,
      decode .s16 (0xEA :: b0 :: b1 :: s0 :: s1 :: rest) = .ok (.jmpPtr1616 (b1 ++ b0) (s1 ++ s0), rest)) ∧
    (∀ b0 b1 b2 b3 s0 s1 : Byte,
      decode .s32 (0xEA :: b0 :: b1 :: b2 :: b3 :: s0 :: s1 :: rest) =
        .ok (.jmpPtr1632 (b3 ++ b2 ++ b1 ++ b0) (s1 ++ s0), rest))

/-- The register form of `FF /4`, ModR/M bytes E0 to E7: the eight registers by their numbers (10_state.md R20, the spec's
decision D27, log 14; 30_encoding.md R97, R100, log 11), and the field of the state that each name reads. -/
def Obligations.RegisterIndirectDecodes : Prop :=
  ∀ row ∈ ([(0xE0, .eax, fun g => g.eax), (0xE1, .ecx, fun g => g.ecx), (0xE2, .edx, fun g => g.edx),
      (0xE3, .ebx, fun g => g.ebx), (0xE4, .esp, fun g => g.esp), (0xE5, .ebp, fun g => g.ebp),
      (0xE6, .esi, fun g => g.esi), (0xE7, .edi, fun g => g.edi)] : List (Byte × Reg × (GPRegs → Word))),
    (∀ rest : List Byte, decode .s16 (0xFF :: row.1 :: rest) = .ok (.jmpRm16 (.reg row.2.1), rest) ∧
      decode .s32 (0xFF :: row.1 :: rest) = .ok (.jmpRm32 (.reg row.2.1), rest) ∧
      decode .s16 (0x66 :: 0xFF :: row.1 :: rest) = .ok (.jmpRm32 (.reg row.2.1), rest) ∧
      decode .s32 (0x66 :: 0xFF :: row.1 :: rest) = .ok (.jmpRm16 (.reg row.2.1), rest)) ∧
      ∀ s : State, s.reg row.2.1 = row.2.2 s.regs

/-- Words written out from the spec's encodings, one of each family (95_test_vectors.md T1, T16, T13, T32, T43, T51, T63,
T94). -/
def Obligations.SpecWordsDecode : Prop :=
  decode .s32 [0x74, 0x10] = .ok (.jERel8 .s32 0x10, []) ∧
    decode .s16 [0x0F, 0x84, 0xFC, 0x0E] = .ok (.jERel16 0x0EFC, []) ∧
    decode .s16 [0x67, 0xE3, 0x05] = .ok (.jecxzRel8 .s16 0x05, []) ∧
    decode .s32 [0xEB, 0xF0] = .ok (.jmpRel8 .s32 0xF0, []) ∧
    decode .s32 [0xFF, 0x24, 0x8D, 0x00, 0x30, 0x00, 0x00] =
      .ok (.jmpRm32 (.mem ⟨none, .sibDirect 2 (some .ecx) 0x3000⟩), []) ∧
    decode .s16 [0x26, 0xFF, 0x26, 0x00, 0x30] = .ok (.jmpRm16 (.mem ⟨some .es, .direct16 0x3000⟩), []) ∧
    decode .s16 [0x66, 0xEA, 0x78, 0x56, 0x34, 0x12, 0x00, 0x20] = .ok (.jmpPtr1632 0x12345678 0x2000, []) ∧
    decode .s32 [0xFF, 0x2D, 0xFC, 0x3F, 0x00, 0x00] = .ok (.jmpM1632 ⟨none, .direct32 0x3FFC⟩, [])

/-- The register form of the far indirect JMP is no instruction, bare or behind prefix 66, and a step at its two or three
bytes raises the invalid-opcode exception; the spec's own decision D18 from general knowledge, log 10 (30_encoding.md,
section 6). Behind every other stack of prefixes it is refused: IdleAndRepeatedPrefixesAreRefused. -/
def Obligations.RegisterFarIndirectIsInvalid : Prop :=
  ∀ ps ∈ ([[], [0x66]] : List (List Byte)), ∀ rm : BitVec 3,
    (∀ (cs : Size) (rest : List Byte), decode cs (ps ++ 0xFF :: (3#2 ++ 5#3 ++ rm) :: rest) = .error .invalidOpcode) ∧
      (∀ s : State, s.pagingEnabled = false → s.pastEnd = false →
        s.mem.readBytes (s.cs.base + s.eip) (ps.length + 2) = ps ++ [0xFF, 3#2 ++ 5#3 ++ rm] →
        s.eip.toNat + (ps.length + 2) ≤ s.cs.limit.toNat + 1 → step s = .fault .invalidOpcode)

/-- Behind any stack of prefixes: a prefix with nothing to act on is refused (an address-size prefix or a segment override
before a conditional jump on flags, a relative JMP, a direct far JMP or a register form of `FF`; an override before the
count-register jump E3), and so are a repeated prefix, a second segment override (log 9), and F0, F2 and F3; the spec's own
decision D18, log 9 (30_encoding.md, section 5). -/
def Obligations.IdleAndRepeatedPrefixesAreRefused : Prop :=
  ∀ (cs : Size) (ps rest : List Byte), (∀ p ∈ ps, p ∈ prefixBytes) →
    ((∃ p ∈ ps, p ∈ 0x67#8 :: overrideBytes) → ∀ op : Byte, isPlainOpcode op = true →
      decode cs (ps ++ op :: rest) = .error .notInSpec) ∧
    ((∃ p ∈ ps, p ∈ overrideBytes) → decode cs (ps ++ 0xE3 :: rest) = .error .notInSpec) ∧
    ((∃ p ∈ ps, p ∈ 0x67#8 :: overrideBytes) → ∀ (digit rm : BitVec 3),
      decode cs (ps ++ 0xFF :: (3#2 ++ digit ++ rm) :: rest) = .error .notInSpec) ∧
    (¬ ps.Nodup ∨ 2 ≤ (ps.filter fun p => overrideBytes.contains p).length →
      decode cs (ps ++ rest) = .error .notInSpec) ∧
    (∀ b ∈ [0xF0#8, 0xF2#8, 0xF3#8], decode cs (ps ++ b :: rest) = .error .notInSpec)

/-- Bytes that 30_encoding.md R90 maps to no instruction are refused behind any stack of prefixes and whatever follows (R108,
the spec's own decision D18): every opcode byte that is none of the spec's, every second byte after 0F outside 80 to 8F, and
FF with a `reg` field other than 4 and 5 in every `mod`. A step at such bytes, all of them within CS.limit and paging off, is
refused as not in the spec, however many prefixes stand before them (log 9). -/
def Obligations.UnmappedBytesAreRefused : Prop :=
  ∀ ps tail : List Byte, (∀ p ∈ ps, p ∈ prefixBytes) → isUnmapped tail = true →
    (∀ (cs : Size) (rest : List Byte), decode cs (ps ++ tail ++ rest) = .error .notInSpec) ∧
      (∀ s : State, s.pagingEnabled = false → s.pastEnd = false →
        s.mem.readBytes (s.cs.base + s.eip) (ps ++ tail).length = ps ++ tail →
        s.eip.toNat + (ps ++ tail).length ≤ s.cs.limit.toNat + 1 → step s = .refused .notInSpec)

/-- Prefixes may stand in any order (30_encoding.md, section 5, general knowledge, log 11): exchanging two neighbours changes
nothing. -/
def Obligations.PrefixesComeInAnyOrder : Prop :=
  ∀ (cs : Size) (ps rest : List Byte) (p q : Byte), (∀ x ∈ ps, x ∈ prefixBytes) → p ∈ prefixBytes → q ∈ prefixBytes →
    decode cs (ps ++ p :: q :: rest) = decode cs (ps ++ q :: p :: rest)

/-- What the operand-size prefix changes (30_encoding.md, section 5, general knowledge, log 11; that the operand size alone
picks the form is 90_conflicts.md C4, log 32). A conditional jump on flags, a relative JMP or a direct far JMP decodes as in
a segment of the other size. Opcodes E3 and FF, behind any stack of other prefixes, decode to the same instruction with the
other operand size, its address size and address as without the prefix, and are refused where they are refused without it. -/
def Obligations.OperandSizePrefixPicksTheOtherForm : Prop :=
  ∀ (cs : Size) (rest : List Byte),
    (∀ op : Byte, isPlainOpcode op = true → decode cs (0x66 :: op :: rest) = decode cs.other (op :: rest)) ∧
    (∀ (ps : List Byte) (op : Byte), (∀ p ∈ ps, p ∈ prefixBytes ∧ p ≠ 0x66) → op ∈ [0xE3#8, 0xFF#8] →
      decode cs (0x66 :: (ps ++ op :: rest)) =
        (decode cs (ps ++ op :: rest)).map fun r => (otherOperandSize r.1, r.2))

/-! ### Effective addresses -/

/-- The table of 16-bit effective addresses (30_encoding.md, section 4, general knowledge, log 11), read from the ModR/M byte
of `FF /4` without a displacement (`rm` other than 6) and with a 16-bit one: the sum modulo 2^16 and the default segment. -/
def Obligations.EffectiveAddress16 : Prop :=
  ∀ (s : State) (rm : BitVec 3),
    (rm ≠ 6 → jumpsThrough .s16 s [0xFF, 0#2 ++ 4#3 ++ rm] (registerSum16 s rm % 65536)
      (if rm.toNat ∈ [2, 3] then .ss else .ds)) ∧
    (∀ b0 b1 : Byte, jumpsThrough .s16 s [0xFF, 2#2 ++ 4#3 ++ rm, b0, b1]
      ((registerSum16 s rm + (b0.toNat + 256 * b1.toNat)) % 65536) (if rm.toNat ∈ [2, 3, 6] then .ss else .ds))

/-- An 8-bit displacement is signed and the bare 16-bit displacement stands alone, in DS (30_encoding.md, section 4, general
knowledge, log 11). -/
def Obligations.ShortDisplacement16 : Prop :=
  (∀ (s : State) (rm : BitVec 3) (b : Byte), jumpsThrough .s16 s [0xFF, 1#2 ++ 4#3 ++ rm, b]
      (((registerSum16 s rm : Int) + b.toInt) % 65536).toNat (if rm.toNat ∈ [2, 3, 6] then .ss else .ds)) ∧
    (∀ (s : State) (b0 b1 : Byte), jumpsThrough .s16 s [0xFF, 0#2 ++ 4#3 ++ 6#3, b0, b1] (b0.toNat + 256 * b1.toNat) .ds)

/-- The 32-bit address with a SIB byte (30_encoding.md, section 4, general knowledge, log 11): base plus scaled index plus
displacement modulo 2^32, no index for field 4, no base for field 5 with `mod` 0, and SS when the base is ESP or EBP. -/
def Obligations.EffectiveAddressSib : Prop :=
  ∀ (s : State) (scale : BitVec 2) (index base : BitVec 3),
    (base ≠ 5 → jumpsThrough .s32 s [0xFF, 0#2 ++ 4#3 ++ 4#3, scale ++ index ++ base]
      ((registerValue s base + indexPart s scale index) % 4294967296) (if base = 4 then .ss else .ds)) ∧
    (∀ b0 b1 b2 b3 : Byte, jumpsThrough .s32 s [0xFF, 0#2 ++ 4#3 ++ 4#3, scale ++ index ++ 5#3, b0, b1, b2, b3]
      ((indexPart s scale index + word32 b0 b1 b2 b3) % 4294967296) .ds) ∧
    (∀ b : Byte, jumpsThrough .s32 s [0xFF, 1#2 ++ 4#3 ++ 4#3, scale ++ index ++ base, b]
      (((registerValue s base + indexPart s scale index : Int) + b.toInt) % 4294967296).toNat
      (if base = 4 ∨ base = 5 then .ss else .ds)) ∧
    (∀ b0 b1 b2 b3 : Byte, jumpsThrough .s32 s [0xFF, 2#2 ++ 4#3 ++ 4#3, scale ++ index ++ base, b0, b1, b2, b3]
      ((registerValue s base + indexPart s scale index + word32 b0 b1 b2 b3) % 4294967296)
      (if base = 4 ∨ base = 5 then .ss else .ds))

/-- The 32-bit address of a plain register (30_encoding.md, section 4, general knowledge, log 11): with no displacement,
where `rm` = 5 is a bare 32-bit displacement, with a signed 8-bit one, and with a 32-bit one. -/
def Obligations.EffectiveAddress32 : Prop :=
  ∀ (s : State) (rm : BitVec 3), rm ≠ 4 →
    (rm ≠ 5 → jumpsThrough .s32 s [0xFF, 0#2 ++ 4#3 ++ rm] (registerValue s rm) .ds) ∧
    (∀ b0 b1 b2 b3 : Byte, jumpsThrough .s32 s [0xFF, 0#2 ++ 4#3 ++ 5#3, b0, b1, b2, b3] (word32 b0 b1 b2 b3) .ds) ∧
    (∀ b : Byte, jumpsThrough .s32 s [0xFF, 1#2 ++ 4#3 ++ rm, b]
      (((registerValue s rm : Int) + b.toInt) % 4294967296).toNat (if rm = 5 then .ss else .ds)) ∧
    (∀ b0 b1 b2 b3 : Byte, jumpsThrough .s32 s [0xFF, 2#2 ++ 4#3 ++ rm, b0, b1, b2, b3]
      ((registerValue s rm + word32 b0 b1 b2 b3) % 4294967296) (if rm = 5 then .ss else .ds))

/-- A segment override byte of 30_encoding.md R104 before `FF /4` or `FF /5` gives the same instruction with the same address,
read through the segment that the byte names (section 5, general knowledge, log 11); and the name of a segment is the
register of the state with that name (10_state.md R28; 20_memory.md R68), which the read of an operand at any address uses:
its linear address is that register's base plus the offset (20_memory.md R60, D11, log 15), little-endian (D3, log 12). -/
def Obligations.SegmentOverrideReplacesTheDefault : Prop :=
  (∀ s : State, s.seg .cs = s.cs ∧ s.seg .ss = s.ss ∧ s.seg .ds = s.ds ∧ s.seg .es = s.es ∧ s.seg .fs = s.fs ∧
    s.seg .gs = s.gs) ∧
  (∀ (s : State) (m : MemOp) (n : Nat), readable s m n = true →
    s.readMemOp m n = .ok (byteSum s ((segmentNamed s (operandSeg m)).base + s.effectiveOffset m.addr) n)) ∧
  ∀ (cs : Size) (a : Addr) (rest : List Byte), a.wellFormed = true → a.size = cs →
    (decode cs (0xFF :: (a.encode 4 ++ rest)) = .ok (jmpThrough cs ⟨none, a⟩, rest) ∧
      decode cs (0xFF :: (a.encode 5 ++ rest)) = .ok (farJmpThrough cs ⟨none, a⟩, rest)) ∧
    ∀ row ∈ overrideTable,
      decode cs (row.1 :: 0xFF :: (a.encode 4 ++ rest)) = .ok (jmpThrough cs ⟨some row.2, a⟩, rest) ∧
        decode cs (row.1 :: 0xFF :: (a.encode 5 ++ rest)) = .ok (farJmpThrough cs ⟨some row.2, a⟩, rest) ∧
        operandSeg ⟨some row.2, a⟩ = row.2

/-- Memory is little-endian (20_memory.md, section 2, the spec's own decision D3, log 12): a read of `n` bytes is the sum of
the bytes times the powers of 256, at consecutive addresses modulo 2^32. -/
def Obligations.MemReadIsLittleEndian : Prop :=
  ∀ (s : State) (a : Word) (n : Nat), s.pagingEnabled = false → s.memRead a n = .ok (byteSum s a n)

/-! ### One step -/

/-- When the bytes that may be fetched at CS:EIP decode to an instruction, the step is that instruction's meaning
(00_scope.md R11). In a state whose EIP has run past 2^32 - 1 nothing may be fetched: FetchBeyondLimitAndPagingAreRefused. -/
def Obligations.StepRunsTheDecodedInstruction : Prop :=
  ∀ (s : State) (i : Instr) (rest : List Byte), s.pagingEnabled = false → s.pastEnd = false →
    decode s.cs.size (s.mem.readBytes (s.cs.base + s.eip) (min 10 (s.cs.limit.toNat + 1 - s.eip.toNat))) = .ok (i, rest) →
    step s = exec i s

/-- When the bytes that may be fetched at CS:EIP decode to no instruction, the step stops as the decoder's reason says:
bytes not in the spec are refused (30_encoding.md R104, R108), the illegal encoding raises the invalid-opcode exception (R106,
log 10), and bytes that run out are refused as beyond CS.limit (20_memory.md R70, the spec's decision D29, log 8). -/
def Obligations.StepStopsWhereNothingDecodes : Prop :=
  ∀ (s : State) (r : Reject), s.pagingEnabled = false → s.pastEnd = false →
    decode s.cs.size (s.mem.readBytes (s.cs.base + s.eip) (min 10 (s.cs.limit.toNat + 1 - s.eip.toNat))) = .error r →
    step s =
      match r with
      | .notInSpec => .refused .notInSpec
      | .invalidOpcode => .fault .invalidOpcode
      | .truncated => .refused .fetchBeyondLimit

/-- When the bytes of a well-formed instruction stand at CS:EIP and the last of them is within CS.limit, the step is that
instruction's meaning, whatever stands after them (20_memory.md R70; 00_scope.md R11). -/
def Obligations.InstructionInMemoryRuns : Prop :=
  ∀ (s : State) (i : Instr), s.pagingEnabled = false → s.pastEnd = false → i.wellFormed = true →
    s.mem.readBytes (s.cs.base + s.eip) (instrLength s.cs.size i) = encode s.cs.size i →
    s.eip.toNat + instrLength s.cs.size i ≤ s.cs.limit.toNat + 1 → step s = exec i s

/-- An instruction byte beyond CS.limit is refused, and so are any step with paging on and, paging off, any step after
sequential execution has run past 2^32 - 1; the spec's own decisions D29 and D14, log 8, log 37, log 7 (20_memory.md,
sections 6 and 7). -/
def Obligations.FetchBeyondLimitAndPagingAreRefused : Prop :=
  (∀ s : State, s.pagingEnabled = true → step s = .refused .pagingOn) ∧
    (∀ s : State, s.pagingEnabled = false → s.cs.limit.toNat < s.eip.toNat → step s = .refused .fetchBeyondLimit) ∧
    (∀ s : State, s.pagingEnabled = false → s.pastEnd = true → step s = .refused .fetchBeyondLimit) ∧
    (∀ (s : State) (i : Instr), s.pagingEnabled = false → i.wellFormed = true →
      s.mem.readBytes (s.cs.base + s.eip) (instrLength s.cs.size i) = encode s.cs.size i →
      s.eip.toNat ≤ s.cs.limit.toNat → s.cs.limit.toNat + 1 < s.eip.toNat + instrLength s.cs.size i →
      step s = .refused .fetchBeyondLimit)

/-! ### Relative jumps -/

/-- Every conditional jump whose condition holds, and every relative JMP, completes when its target is within CS.limit: EIP
is the exact sum of the following offset and the signed displacement, reduced to the operand size, and nothing else changes
(40_jcc.md R140, R141; 41_jmp_near.md R200). The condition table is 30_encoding.md R93 with 90_conflicts.md C1, log 32; that
a JMP sign-extends its displacement too is 90_conflicts.md C5, log 32; the count register of E3 is the spec's decision D6,
log 13. -/
def Obligations.TakenRelativeJumpReachesItsTarget : Prop :=
  ∀ (s : State) (i : Instr) (j : RelativeJump), relativeJump s i = some j → j.taken = true →
    relativeTarget s i j ≤ s.cs.limit.toNat →
    exec i s = .next { s with eip := BitVec.ofNat 32 (relativeTarget s i j) }

/-- Every conditional jump whose condition does not hold goes on at the following instruction: EIP is its offset modulo 2^32,
not masked, the spec's own decision D24, log 22 (40_jcc.md, section 2), and nothing else changes but the model's own mark of
a run past 2^32 - 1, log 37, which is set exactly when the exact offset is 2^32 or more. -/
def Obligations.UntakenConditionalJumpFallsThrough : Prop :=
  ∀ (s : State) (i : Instr) (j : RelativeJump), relativeJump s i = some j → j.taken = false →
    exec i s = .next { s with
      eip := BitVec.ofInt 32 (followingOffset s i)
      pastEnd := s.pastEnd || decide (4294967296 ≤ followingOffset s i) }

/-- Sequential execution does not wrap: after a conditional jump not taken that ends at offset 2^32 - 1, or beyond it, the next
step is refused as a fetch beyond the limit, whatever stands at EIP, which is the following offset modulo 2^32 (20_memory.md
R70; the spec's own decisions D24 and D29 and its U4; log 22, log 37). Nothing else sets the model's mark of it, and nothing
clears it: a jump taken to the same offset goes on. -/
def Obligations.SequentialExecutionPastTheEndIsRefused : Prop :=
  (∀ (s : State) (i : Instr) (j : RelativeJump), s.pagingEnabled = false → relativeJump s i = some j → j.taken = false →
    4294967296 ≤ followingOffset s i →
    ∃ t, exec i s = .next t ∧ (t.eip.toNat : Int) = followingOffset s i - 4294967296 ∧
      step t = .refused .fetchBeyondLimit) ∧
    (∀ (s t : State) (i : Instr), exec i s = .next t → t.pastEnd ≠ s.pastEnd →
      t.pastEnd = true ∧ 4294967296 ≤ followingOffset s i ∧ ∃ j, relativeJump s i = some j ∧ j.taken = false)

/-- A relative jump that is taken to a target beyond CS.limit raises #GP(0) in Protected Mode, and is refused in the other
two modes, which is the spec's own decision D8, log 5 (40_jcc.md R143; 41_jmp_near.md R206). -/
def Obligations.RelativeJumpBeyondTheLimitStops : Prop :=
  ∀ (s : State) (i : Instr) (j : RelativeJump), relativeJump s i = some j → j.taken = true →
    s.cs.limit.toNat < relativeTarget s i j →
    exec i s = if s.mode = .protectedMode then .fault (.gp 0) else .refused .targetBeyondLimit

/-- A conditional jump stays in the current code segment, within the reach of its form from the following instruction's
first byte (40_jcc.md R179). -/
def Obligations.ConditionalJumpStaysInItsSegmentAndReach : Prop :=
  ∀ (s t : State) (i : Instr) (j : RelativeJump), relativeJump s i = some j → j.conditional = true →
    exec i s = .next t →
    t.cs = s.cs ∧ ∃ d : Int, -reachOf i ≤ d ∧ d < reachOf i ∧
      (t.eip.toNat : Int) % offsetModulus j.os = (followingOffset s i + d) % offsetModulus j.os

/-! ### Near indirect jumps -/

/-- A near indirect JMP with a register operand, or with a memory operand that it may read, completes when the offset it
finds is within CS.limit: EIP is that offset, zero-extended, and nothing else changes (41_jmp_near.md R204, R205; the
memory forms rest on the spec's decisions D3, D23, D30, log 11, log 12, log 20). -/
def Obligations.NearIndirectJumpReachesItsOperand : Prop :=
  ∀ (s : State) (i : Instr) (v : Nat), nearOperand s i = some v → v ≤ s.cs.limit.toNat →
    exec i s = .next { s with eip := BitVec.ofNat 32 v }

/-- A near indirect JMP to an offset beyond CS.limit raises #GP in Protected Mode, with code 0 by the spec's decision D10,
log 19, and is refused in the other two modes by its decision D8, log 5 (41_jmp_near.md R206, R207). -/
def Obligations.NearIndirectJumpBeyondTheLimitStops : Prop :=
  ∀ (s : State) (i : Instr) (v : Nat), nearOperand s i = some v → s.cs.limit.toNat < v →
    exec i s = if s.mode = .protectedMode then .fault (.gp 0) else .refused .targetBeyondLimit

/-- The only state that a near JMP writes is EIP (41_jmp_near.md R209). -/
def Obligations.NearJumpWritesOnlyEip : Prop :=
  ∀ (s t : State) (i : Instr), isNearJmp i = true → exec i s = .next t → t = { s with eip := t.eip }

/-! ### Memory operands -/

/-- An operand with any part outside offsets 0 to FFFFH raises Interrupt 13 in Real Address Mode and V86 mode, SS included;
in Protected Mode one beyond its segment's limit raises #SS(0) through SS and #GP(0) through any other segment, before its
value can be looked at (20_memory.md R66, R67; the spec's decisions D21, D23, D26, log 20, log 21, log 29). That all six
bytes of m16:32 are checked is 90_conflicts.md C7, log 32: the source prints "check access of EA dword", four bytes. A usable
segment is read by bits, `usableSegment`. -/
def Obligations.OperandBeyondItsSegmentFaults : Prop :=
  ∀ (s : State) (i : Instr) (m : MemOp) (n : Nat), memoryOperand i = some (m, n) →
    (s.mode ≠ .protectedMode → 0xFFFF < lastOffset s m n → exec i s = .fault .interrupt13) ∧
      (s.mode = .protectedMode → usableSegment (operandSegment s m) = true →
        (operandSegment s m).limit.toNat < lastOffset s m n →
        exec i s = .fault (if operandSeg m = .ss then .ss 0 else .gp 0))

/-- A memory operand in Protected Mode through a segment register that does not hold a present, readable, expand-up segment
is refused, and one through a segment register that does is not refused for its segment; the spec's own decision D23, log 20
(20_memory.md, section 5). The Access Rights byte is read by bits 7 (P), 4 (S), 3 to 1 (type), log 17: types 8 and 9 are
expand-up data, 13 and 15 readable code. -/
def Obligations.IllegalOperandSegmentIsRefused : Prop :=
  ∀ (s : State) (i : Instr) (m : MemOp) (n : Nat), memoryOperand i = some (m, n) → s.mode = .protectedMode →
    ((notNull (operandSegment s m).selector = false ∨ (operandSegment s m).ar.toNat < 128 ∨
        (operandSegment s m).ar.toNat / 2 % 16 ∉ [8, 9, 13, 15]) →
      exec i s = .refused .illegalOperandSegment) ∧
    (notNull (operandSegment s m).selector = true → 128 ≤ (operandSegment s m).ar.toNat →
      (operandSegment s m).ar.toNat / 2 % 16 ∈ [8, 9, 13, 15] →
      (operandSegment s m).operandOk = true ∧ exec i s ≠ .refused .illegalOperandSegment)

/-! ### Far jumps in Real Address Mode and V86 mode -/

/-- A far JMP in Real Address Mode or V86 mode completes when its offset is within 64K: CS takes the selector, with base
`selector * 16`, which is the spec's decision D11, log 15; the rest of CS and of the state is as before (42_jmp_far.md,
section 2). A pointer in memory is read as `farOperand` says (D3, D4, log 12; D23, log 20; C7, log 32). -/
def Obligations.RealFarJumpLoadsCsAndEip : Prop :=
  ∀ (s : State) (i : Instr) (p : LongPointer), farOperand s i = some p → s.mode ≠ .protectedMode → p.off ≤ 0xFFFF →
    exec i s = .next { s with
      eip := BitVec.ofNat 32 p.off
      cs := { s.cs with selector := p.sel, base := BitVec.ofNat 32 (p.sel.toNat * 16) } }

/-- A far JMP in Real Address Mode or V86 mode to an offset above FFFFH is refused; the spec's own decision D8, log 5
(42_jmp_far.md, section 2). -/
def Obligations.RealFarJumpAbove64KIsRefused : Prop :=
  ∀ (s : State) (i : Instr) (p : LongPointer), farOperand s i = some p → s.mode ≠ .protectedMode → 0xFFFF < p.off →
    exec i s = .refused .targetBeyondLimit

/-- The path of a far JMP follows PE and VM: with PE = 0, or PE = 1 and VM = 1, the real or V86 path; with PE = 1 and
VM = 0 the protected path (42_jmp_far.md R230; 10_state.md R27). -/
def Obligations.FarJumpPathFollowsPeAndVm : Prop :=
  ∀ (s : State) (i : Instr) (p : LongPointer), farOperand s i = some p →
    (s.pe = false ∨ (s.pe = true ∧ s.vm = true) →
      exec i s = finish (s.farRealV86 p.os ⟨p.sel, BitVec.ofNat 32 p.off⟩)) ∧
    (s.pe = true ∧ s.vm = false → exec i s = finish (s.farProtected p.os ⟨p.sel, BitVec.ofNat 32 p.off⟩))

/-- The real or V86 path consults no descriptor table and no privilege level (42_jmp_far.md R236: "No descriptor is
consulted and no privilege check is made"): other tables and another CPL change nothing but themselves. -/
def Obligations.RealFarJumpConsultsNoDescriptor : Prop :=
  ∀ (s : State) (i : Instr) (g l : TableReg) (c : BitVec 2), isFarJmp i = true → s.mode ≠ .protectedMode →
    exec i { s with gdtr := g, ldtr := l, cpl := c } =
      mapNext (fun t => { t with gdtr := g, ldtr := l, cpl := c }) (exec i s)

/-! ### Far jumps in Protected Mode

A pointer in memory is read as `farOperand` says: the byte order and the order of its parts are the spec's decisions D3 and
D4, log 12, the checked read its D23, log 20, and the six bytes of m16:32 are 90_conflicts.md C7, log 32. -/

/-- The checks common to every protected far JMP, in their order: a null selector is #GP(0), an index outside its table is
#GP(selector), an Access Rights byte of none of the five kinds is #GP(selector) (42_jmp_far.md R237; the formats are the
spec's decision D25, log 17, the error codes log 19, the order of the checks log 29). -/
def Obligations.ProtectedFarJumpChecksItsSelector : Prop :=
  ∀ (s : State) (i : Instr) (p : LongPointer), farOperand s i = some p → s.mode = .protectedMode →
    s.pagingEnabled = false →
    (notNull p.sel = false → exec i s = .fault (.gp 0)) ∧
      (notNull p.sel = true → entryInTable s p.sel = false → exec i s = .fault (.gp p.sel)) ∧
      (notNull p.sel = true → entryInTable s p.sel = true → entryType s p.sel < 24 →
        entryType s p.sel ∉ [1, 3, 4, 5, 9, 11, 12] → exec i s = .fault (.gp p.sel))

/-- NONCONFORMING-CODE-SEGMENT, every outcome in the order of its checks (42_jmp_far.md, section 3). The lost relation
RPL <= CPL is the spec's decision D12, log 16, the formats its general knowledge, log 17, the error codes log 19, the order
log 29. That the descriptor's bytes in memory are unchanged too, its accessed bit among them, is the model's choice, log 24
(93_implementation_defined.md U9). -/
def Obligations.FarJumpToNonConformingCode : Prop :=
  ∀ (s : State) (i : Instr) (p : LongPointer), farOperand s i = some p → s.mode = .protectedMode →
    s.pagingEnabled = false → notNull p.sel = true → entryInTable s p.sel = true →
    24 ≤ entryType s p.sel → entryType s p.sel < 28 →
    exec i s =
      if s.cpl.toNat < p.sel.toNat % 4 then .fault (.gp p.sel)
      else if entryDpl s p.sel ≠ s.cpl.toNat then .fault (.gp p.sel)
      else if entryPresent s p.sel = false then .fault (.np p.sel)
      else if entryLimit s p.sel < p.off then .fault (.gp 0)
      else .next { s with eip := BitVec.ofNat 32 p.off, cs := codeSegmentOf s p.sel }

/-- CONFORMING-CODE-SEGMENT, every outcome in the order of its checks (42_jmp_far.md, section 3). The lost relation
DPL <= CPL is the spec's decision D12, log 16, the RPL of CS its decision D28, log 18, the formats its general knowledge,
log 17, the error codes log 19, the order log 29. That the descriptor's bytes in memory are unchanged too, its accessed bit
among them, is the model's choice, log 24 (93_implementation_defined.md U9). -/
def Obligations.FarJumpToConformingCode : Prop :=
  ∀ (s : State) (i : Instr) (p : LongPointer), farOperand s i = some p → s.mode = .protectedMode →
    s.pagingEnabled = false → notNull p.sel = true → entryInTable s p.sel = true → 28 ≤ entryType s p.sel →
    exec i s =
      if s.cpl.toNat < entryDpl s p.sel then .fault (.gp p.sel)
      else if entryPresent s p.sel = false then .fault (.np p.sel)
      else if entryLimit s p.sel < p.off then .fault (.gp 0)
      else .next { s with eip := BitVec.ofNat 32 p.off, cs := codeSegmentOf s p.sel }

/-- CALL-GATE, every outcome in the order of its checks; the pointer's own offset plays no part (42_jmp_far.md, section 3).
The lost relations are the spec's decision D12, log 16, the formats its general knowledge, log 17, the width of the gate's
offset log 23, the bytes 6 and 7 of a 16-bit gate log 36, the error codes log 19, the order log 29. That the descriptors'
bytes in memory are unchanged too, an accessed bit among them, is the model's choice, log 24 (93_implementation_defined.md
U9). -/
def Obligations.FarJumpThroughCallGate : Prop :=
  ∀ (s : State) (i : Instr) (p : LongPointer), farOperand s i = some p → s.mode = .protectedMode →
    s.pagingEnabled = false → notNull p.sel = true → entryInTable s p.sel = true → entryType s p.sel ∈ [4, 12] →
    exec i s =
      if entryDpl s p.sel < s.cpl.toNat then .fault (.gp p.sel)
      else if entryDpl s p.sel < p.sel.toNat % 4 then .fault (.gp p.sel)
      else if entryPresent s p.sel = false then .fault (.np p.sel)
      else if notNull (entryGateSelector s p.sel) = false then .fault (.gp 0)
      else if entryInTable s (entryGateSelector s p.sel) = false then .fault (.gp (entryGateSelector s p.sel))
      else if entryType s (entryGateSelector s p.sel) < 24 then .fault (.gp (entryGateSelector s p.sel))
      else if entryType s (entryGateSelector s p.sel) < 28 ∧ entryDpl s (entryGateSelector s p.sel) ≠ s.cpl.toNat then
        .fault (.gp (entryGateSelector s p.sel))
      else if 28 ≤ entryType s (entryGateSelector s p.sel) ∧ s.cpl.toNat < entryDpl s (entryGateSelector s p.sel) then
        .fault (.gp (entryGateSelector s p.sel))
      else if entryPresent s (entryGateSelector s p.sel) = false then .fault (.np (entryGateSelector s p.sel))
      else if entryLimit s (entryGateSelector s p.sel) < entryGateOffset s p.sel p.os then .fault (.gp 0)
      else .next { s with
        eip := BitVec.ofNat 32 (entryGateOffset s p.sel p.os)
        cs := codeSegmentOf s (entryGateSelector s p.sel) }

/-- TASK-GATE, every outcome in the order of its checks, the last a refusal because SWITCH-TASKS is in no source
(42_jmp_far.md, section 3). The lost relations are the spec's decision D12, log 16, the refusal its D13, log 6. That types 1
and 9 are both available is 90_conflicts.md C3, log 17, log 32 (the source prints 00001 only); the formats are log 17, the
error codes log 19, the order log 29. -/
def Obligations.FarJumpThroughTaskGate : Prop :=
  ∀ (s : State) (i : Instr) (p : LongPointer), farOperand s i = some p → s.mode = .protectedMode →
    s.pagingEnabled = false → notNull p.sel = true → entryInTable s p.sel = true → entryType s p.sel = 5 →
    exec i s =
      if entryDpl s p.sel < s.cpl.toNat then .fault (.gp p.sel)
      else if entryDpl s p.sel < p.sel.toNat % 4 then .fault (.gp p.sel)
      else if entryPresent s p.sel = false then .fault (.np p.sel)
      else if (entryGateSelector s p.sel).toNat / 4 % 2 = 1 then .fault (.gp (entryGateSelector s p.sel))
      else if entryInTable s (entryGateSelector s p.sel) = false then .fault (.gp (entryGateSelector s p.sel))
      else if entryType s (entryGateSelector s p.sel) ∉ [1, 9] then .fault (.gp (entryGateSelector s p.sel))
      else if entryPresent s (entryGateSelector s p.sel) = false then .fault (.np (entryGateSelector s p.sel))
      else .refused .taskSwitch

/-- TASK-STATE-SEGMENT, every outcome in the order of its checks, the last a refusal (42_jmp_far.md, section 3). The lost
relations are the spec's decision D12, log 16, the refusal its D13, log 6. That types 1 and 9 are both available is
90_conflicts.md C3, log 17, log 32 (the source prints 00001 only); that the local/global bit is not tested is log 34; the
formats are log 17, the error codes log 19, the order log 29. -/
def Obligations.FarJumpToTaskStateSegment : Prop :=
  ∀ (s : State) (i : Instr) (p : LongPointer), farOperand s i = some p → s.mode = .protectedMode →
    s.pagingEnabled = false → notNull p.sel = true → entryInTable s p.sel = true →
    entryType s p.sel ∈ [1, 3, 9, 11] →
    exec i s =
      if entryDpl s p.sel < s.cpl.toNat then .fault (.gp p.sel)
      else if entryDpl s p.sel < p.sel.toNat % 4 then .fault (.gp p.sel)
      else if entryType s p.sel ∉ [1, 9] then .fault (.gp p.sel)
      else if entryPresent s p.sel = false then .fault (.np p.sel)
      else .refused .taskSwitch

/-- A far JMP writes no flag on any path that it completes (42_jmp_far.md, section 3). The last clause, that the two task paths
never complete and so never write one, is the spec's decision D13, log 6, read through the types of log 17. -/
def Obligations.FarJumpWritesNoFlag : Prop :=
  ∀ (s t : State) (i : Instr) (p : LongPointer), isFarJmp i = true → exec i s = .next t →
    t.flags = s.flags ∧ t.vm = s.vm ∧ t.interruptFlag = s.interruptFlag ∧
      (farOperand s i = some p → s.mode = .protectedMode → entryType s p.sel ∉ [1, 3, 5, 9, 11])

/-- A protected far JMP that completes has loaded CS from the descriptor of its own selector or of the one in the call gate it
names: selector with RPL = CPL, base, limit, Access Rights byte and size attribute (42_jmp_far.md, section 3). On the
conforming path RPL = CPL is the spec's decision D28, log 18; the formats are log 17, the width of the gate's offset log 23,
the bytes 6 and 7 of a 16-bit gate log 36. -/
def Obligations.ProtectedFarJumpLoadsTheDescriptor : Prop :=
  ∀ (s t : State) (i : Instr) (p : LongPointer), farOperand s i = some p → s.mode = .protectedMode →
    exec i s = .next t →
    (24 ≤ entryType s p.sel ∧ t.cs = codeSegmentOf s p.sel ∧ t.eip = BitVec.ofNat 32 p.off) ∨
      (entryType s p.sel ∈ [4, 12] ∧ t.cs = codeSegmentOf s (entryGateSelector s p.sel) ∧
        t.eip = BitVec.ofNat 32 (entryGateOffset s p.sel p.os))

/-! ### The whole machine -/

/-- No step writes anything of the spec's state but EIP and CS: every general register, flag, mode bit, other segment
register, table register, the privilege level and every byte of memory are as before (10_state.md R22, R25, R37; 20_memory.md
R65; 60_exceptions.md R292). That a far JMP marks no descriptor in memory is log 24. The model's own mark of a run past
2^32 - 1, log 37, may change too: SequentialExecutionPastTheEndIsRefused says when. -/
def Obligations.StepWritesOnlyEipAndCs : Prop :=
  ∀ s t : State, step s = .next t →
    t = { s with eip := t.eip, cs := t.cs, pastEnd := t.pastEnd }

/-- No step changes a flag (10_state.md R25). -/
def Obligations.StepWritesNoFlag : Prop :=
  ∀ s t : State, step s = .next t → t.flags = s.flags ∧ t.vm = s.vm ∧ t.interruptFlag = s.interruptFlag

/-- Only a far JMP writes CS (10_state.md R37). -/
def Obligations.OnlyFarJumpsWriteCs : Prop :=
  ∀ s t : State, step s = .next t → t.cs ≠ s.cs → ∃ i : Instr, s.fetch = .ok i ∧ isFarJmp i = true ∧ exec i s = .next t

/-- A control transfer never changes the privilege level, and a far JMP in Protected Mode leaves it in the RPL field of CS
(42_jmp_far.md R251, R249; on the conforming path the RPL is the spec's decision D28, log 18). -/
def Obligations.JumpKeepsThePrivilegeLevel : Prop :=
  ∀ (s t : State) (i : Instr), exec i s = .next t →
    t.cpl = s.cpl ∧ (isFarJmp i = true → s.mode = .protectedMode → t.cs.selector.toNat % 4 = s.cpl.toNat)

/-- In Protected Mode a code segment that fits CPL stays one: present, code, with its DPL equal to CPL when non-conforming
and at most CPL when conforming, and CPL in its RPL (10_state.md R29; 60_exceptions.md R291). A program at CPL 3 may so reach
conforming code of DPL 0, at CPL 3 still (95_test_vectors.md T82). The relations are the spec's decision D12, log 16; that
CPL is in the RPL field on the conforming path too is its D28, log 18; the Access Rights byte is log 17. -/
def Obligations.StepKeepsTheCodeSegmentAtItsPrivilege : Prop :=
  ∀ s t : State, s.mode = .protectedMode → s.csFits = true → step s = .next t →
    t.mode = .protectedMode ∧ t.csFits = true

/-- In Real Address Mode and V86 mode CS keeps base `selector * 16`, limit FFFFH and size 16 (70_reset_and_hazards.md
R321; the base is the spec's decision D11, log 15). -/
def Obligations.StepKeepsTheRealModeCodeSegment : Prop :=
  ∀ s t : State, s.mode ≠ .protectedMode → s.cs.realShape = true → step s = .next t →
    t.mode = s.mode ∧ t.cs.realShape = true

/-- The machine's invariant is kept by every step from every state: memory canonical, paging off, the code segment as its
mode asks (10_state.md R29; 20_memory.md R69; 42_jmp_far.md, sections 2 and 3; 70_reset_and_hazards.md R321). In Protected
Mode the segment fits CPL by the relations of the spec's decision D12, log 16, its RPL being CPL by D28, log 18, and its
Access Rights byte read as log 17 says; that a far JMP in the other two modes keeps CS.limit and CS.size is its D11, log 15. -/
def Obligations.StepKeepsTheStateSound : Prop :=
  ∀ s t : State, s.sound = true → step s = .next t → t.sound = true

/-- The invariant holds after reset; the values are the model's, log 1, log 2, log 3. -/
def Obligations.ResetStateIsSound : Prop := State.reset.sound = true

/-- In Protected Mode a step leaves EIP within the limit of the code segment it goes on in, except where a conditional jump
falls through (20_memory.md R70; 40_jcc.md R143; 41_jmp_near.md R206; 42_jmp_far.md R250). -/
def Obligations.ProtectedJumpsLandWithinTheLimit : Prop :=
  ∀ s t : State, s.mode = .protectedMode → step s = .next t →
    t.eip.toNat ≤ t.cs.limit.toNat ∨
      ∃ i j, s.fetch = .ok i ∧ relativeJump s i = some j ∧ j.taken = false ∧ t.cs = s.cs ∧
        t.eip = BitVec.ofInt 32 (followingOffset s i)

/-- Which exception a step can end in: #GP, #NP and #SS only in Protected Mode, Interrupt 13 only in the other two modes,
#NP only on a far JMP, #SS only with code 0 and on a memory operand, and #TS and #PF never (60_exceptions.md R281; 42_jmp_far.md
R252; the spec's decisions D13, D14, D18, log 6, log 7, log 10). -/
def Obligations.ExceptionsBelongToTheirModes : Prop :=
  ∀ (s : State) (f : Fault), step s = .fault f →
    match f with
    | .gp _ => s.mode = .protectedMode
    | .np _ => s.mode = .protectedMode ∧ ∃ i, s.fetch = .ok i ∧ isFarJmp i = true
    | .ss c => s.mode = .protectedMode ∧ c = 0 ∧ ∃ i m n, s.fetch = .ok i ∧ memoryOperand i = some (m, n) ∧ operandSeg m = .ss
    | .interrupt13 => s.mode ≠ .protectedMode ∧ ∃ i m n, s.fetch = .ok i ∧ memoryOperand i = some (m, n)
    | .invalidOpcode => ∀ i, s.fetch ≠ .ok i
    | .ts => False
    | .pf => False

/-- JCXZ, JECXZ and every JMP read no flag: with other flags they do the same and keep those flags (40_jcc.md R161, R162:
"it tests the contents of the CX or ECX register for 0, not the flags"). -/
def Obligations.CountAndUnconditionalJumpsReadNoFlag : Prop :=
  ∀ (s : State) (i : Instr) (f : Flags),
    (isNearJmp i = true ∨ isFarJmp i = true ∨ ∃ os rel, i = .jcxzRel8 os rel ∨ i = .jecxzRel8 os rel) →
    exec i { s with flags := f } = mapNext (fun t => { t with flags := f }) (exec i s)

/-- With PE = 0 the value of VM is ignored (10_state.md R27): with the other VM a step does the same and keeps it. -/
def Obligations.RealModeIgnoresVm : Prop :=
  ∀ (s : State) (b : Bool), s.pe = false →
    step { s with vm := b } = mapNext (fun t => { t with vm := b }) (step s)

/-- The conditions `cc` and `cc xor 1` are opposites (30_encoding.md, section 2): of the two conditional jumps of one form,
operand size and displacement, in every state one takes its jump and the other goes on at the following instruction. For the
pair E and F this rests on 90_conflicts.md C1, log 32: under the printed "and" of JLE neither would jump on ZF = 1, SF = OF.
A target beyond CS.limit stops as RelativeJumpBeyondTheLimitStops says (the spec's decision D8, log 5); the following offset
is its D24, log 22, the model's mark past 2^32 - 1 log 37. -/
def Obligations.OppositeConditionsExclude : Prop :=
  ∀ (s : State) (cc : BitVec 4) (os : Size) (rel8 : Byte) (rel16 : Half) (rel32 : Word),
    ∀ row ∈ ([(Instr.jccShort (Cond.ofCode cc) os rel8, Instr.jccShort (Cond.ofCode (cc ^^^ 1)) os rel8, os, rel8.toInt),
        (Instr.jccNear16 (Cond.ofCode cc) rel16, Instr.jccNear16 (Cond.ofCode (cc ^^^ 1)) rel16, .s16, rel16.toInt),
        (Instr.jccNear32 (Cond.ofCode cc) rel32, Instr.jccNear32 (Cond.ofCode (cc ^^^ 1)) rel32, .s32, rel32.toInt)] :
        List (Instr × Instr × Size × Int)),
      ∃ taken : Bool,
        relativeJump s row.1 = some ⟨row.2.2.1, row.2.2.2, true, taken⟩ ∧
        relativeJump s row.2.1 = some ⟨row.2.2.1, row.2.2.2, true, !taken⟩ ∧
        exec row.1 s = relativeOutcome s row.1 ⟨row.2.2.1, row.2.2.2, true, taken⟩ ∧
        exec row.2.1 s = relativeOutcome s row.2.1 ⟨row.2.2.1, row.2.2.2, true, !taken⟩
end

