-- ==== Sys2Proof/Laws/Decode.lean ====
section
/-! SUPPORT. The readers of the decoder undo the writers of the encoder, field by field; the lengths of what the encoder
writes. -/

namespace Sys2Proof

/-! ### Field codes -/

@[simp] theorem Reg.ofCode_code (r : Reg) : Reg.ofCode r.code = r := by cases r <;> rfl

@[simp] theorem Reg.code_ofCode (n : BitVec 3) : (Reg.ofCode n).code = n := by revert n; decide

@[simp] theorem Base16.ofCode_code (b : Base16) : Base16.ofCode b.code = b := by cases b <;> rfl

@[simp] theorem Base16.code_ofCode (n : BitVec 3) : (Base16.ofCode n).code = n := by revert n; decide

@[simp] theorem Cond.ofCode_code (c : Cond) : Cond.ofCode c.code = c := by cases c <;> rfl

@[simp] theorem Cond.code_ofCode (n : BitVec 4) : (Cond.ofCode n).code = n := by revert n; decide

/-- An index register that is not ESP survives its field (30_encoding.md R103). -/
theorem indexOfCode_indexCode (i : Option Reg) (h : Addr.indexOk i = true) : indexOfCode (indexCode i) = i := by
  rcases i with - | r
  · rfl
  · cases r <;> first | rfl | exact absurd h (by decide)

/-- The decoded index register is never ESP. -/
@[simp] theorem indexOk_indexOfCode (n : BitVec 3) : Addr.indexOk (indexOfCode n) = true := by revert n; decide

/-! ### Bytes and fields -/

@[simp] theorem take8_cons (b : Byte) (r : List Byte) : take8 (b :: r) = .ok (b, r) := rfl

@[simp] theorem le16_bytes16 (v : Half) : le16 (v.extractLsb' 0 8) (v.extractLsb' 8 8) = v := by
  unfold le16
  ext i hi
  simp only [BitVec.getElem_append, BitVec.getElem_extractLsb']
  split
  · simp [BitVec.getLsbD_eq_getElem hi]
  · rw [show 8 + (i - 8) = i by omega, BitVec.getLsbD_eq_getElem hi]

@[simp] theorem le32_bytes32 (v : Word) :
    le32 (v.extractLsb' 0 8) (v.extractLsb' 8 8) (v.extractLsb' 16 8) (v.extractLsb' 24 8) = v := by
  unfold le32
  ext i hi
  simp only [BitVec.getElem_append, BitVec.getElem_extractLsb']
  split
  · simp [BitVec.getLsbD_eq_getElem hi]
  · split
    · rw [show 8 + (i - 8) = i by omega, BitVec.getLsbD_eq_getElem hi]
    · split
      · rw [show 16 + (i - 8 - 8) = i by omega, BitVec.getLsbD_eq_getElem hi]
      · rw [show 24 + (i - 8 - 8 - 8) = i by omega, BitVec.getLsbD_eq_getElem hi]

/-- The number in two bytes (20_memory.md R62). -/
theorem le16_toNat (b0 b1 : Byte) : (le16 b0 b1).toNat = b0.toNat + 256 * b1.toNat := by
  rw [le16, BitVec.toNat_append, ← Nat.shiftLeft_add_eq_or_of_lt b0.isLt, Nat.shiftLeft_eq]; omega

/-- The number in four bytes (20_memory.md R62). -/
theorem le32_toNat (b0 b1 b2 b3 : Byte) :
    (le32 b0 b1 b2 b3).toNat = b0.toNat + 256 * b1.toNat + 65536 * b2.toNat + 16777216 * b3.toNat := by
  rw [le32, BitVec.toNat_append, BitVec.toNat_append, BitVec.toNat_append,
    ← Nat.shiftLeft_add_eq_or_of_lt b0.isLt, ← Nat.shiftLeft_add_eq_or_of_lt b1.isLt,
    ← Nat.shiftLeft_add_eq_or_of_lt b2.isLt]
  simp only [Nat.shiftLeft_eq]
  omega

@[simp] theorem take16_bytes16 (v : Half) (r : List Byte) : take16 (bytes16 v ++ r) = .ok (v, r) := by
  simp [take16, bytes16]

@[simp] theorem take32_bytes32 (v : Word) (r : List Byte) : take32 (bytes32 v ++ r) = .ok (v, r) := by
  simp [take32, bytes32]

@[simp] theorem fieldByte_hi (hi : BitVec 2) (mid lo : BitVec 3) : (fieldByte hi mid lo).extractLsb' 6 2 = hi := by
  revert hi mid lo; decide

@[simp] theorem fieldByte_mid (hi : BitVec 2) (mid lo : BitVec 3) : (fieldByte hi mid lo).extractLsb' 3 3 = mid := by
  revert hi mid lo; decide

@[simp] theorem fieldByte_lo (hi : BitVec 2) (mid lo : BitVec 3) : (fieldByte hi mid lo).extractLsb' 0 3 = lo := by
  revert hi mid lo; decide

@[simp] theorem prefixKind_prefixByte (s : SegName) : prefixKind s.prefixByte = some (.seg s) := by cases s <;> rfl

/-! ### Lengths -/

@[simp] theorem length_bytes16 (v : Half) : (bytes16 v).length = 2 := rfl

@[simp] theorem length_bytes32 (v : Word) : (bytes32 v).length = 4 := rfl

@[simp] theorem length_opSizePrefix (cs os : Size) : (opSizePrefix cs os).length = sizePrefixLength cs os := by
  cases cs <;> cases os <;> rfl

@[simp] theorem length_addrSizePrefix (cs as : Size) : (addrSizePrefix cs as).length = sizePrefixLength cs as := by
  cases cs <;> cases as <;> rfl

@[simp] theorem length_segPrefix (o : Option SegName) : (segPrefix o).length = if o.isSome then 1 else 0 := by
  cases o <;> rfl

theorem sizePrefixLength_le (cs attr : Size) : sizePrefixLength cs attr ≤ 1 := by
  cases cs <;> cases attr <;> decide

/-- ModR/M, SIB and displacement (30_encoding.md R101 to R103). -/
@[simp] theorem Addr.length_encode (digit : BitVec 3) (a : Addr) : (a.encode digit).length = 1 + a.length := by
  cases a with
  | base16 b d => cases d <;> rfl
  | direct16 d => rfl
  | base32 r d => cases d <;> rfl
  | direct32 d => rfl
  | sib scale index base d => cases d <;> rfl
  | sibDirect scale index d => rfl

theorem Addr.length_le (a : Addr) : a.length ≤ 5 := by
  have h16 : ∀ d : Disp16, d.length ≤ 2 := fun d => by cases d <;> simp [Disp16.length]
  have h32 : ∀ d : Disp32, d.length ≤ 4 := fun d => by cases d <;> simp [Disp32.length]
  cases a with
  | base16 b d => have := h16 d; simp only [Addr.length]; omega
  | base32 r d => have := h32 d; simp only [Addr.length]; omega
  | sib scale index base d => have := h32 d; simp only [Addr.length]; omega
  | _ => simp [Addr.length]

/-- The encoder writes as many bytes as the length says (30_encoding.md R91). -/
theorem Form.encode_length (cs : Size) (f : Form) : (f.encode cs).length = f.length cs := by
  cases f with
  | jmpIndirect os op =>
    cases op with
    | reg r => simp [Form.encode, Form.length]
    | mem m => simp [Form.encode, Form.length, memPrefixes, MemOp.length]; omega
  | _ => simp [Form.encode, Form.length, memPrefixes, MemOp.length] <;> omega

/-- No instruction is shorter than two bytes (30_encoding.md R91). -/
theorem Form.two_le_length (cs : Size) (f : Form) : 2 ≤ f.length cs := by
  cases f with
  | jmpIndirect os op => cases op <;> simp [Form.length]
  | _ => simp [Form.length]

/-- No instruction is longer than ten bytes (92_eei_decisions.md D29). -/
theorem Form.length_le_max (cs : Size) (f : Form) : f.length cs ≤ Config.maxInstrBytes := by
  have p := sizePrefixLength_le cs
  have mem : ∀ os (m : MemOp), m.length cs os ≤ 8 := by
    intro os m
    have := p os
    have := p m.addr.size
    have := m.addr.length_le
    unfold MemOp.length
    split <;> omega
  have h16 := p .s16
  have h32 := p .s32
  unfold Config.maxInstrBytes
  cases f with
  | jmpIndirect os op =>
    cases op with
    | reg r => have := p os; simp only [Form.length]; omega
    | mem m => have := mem os m; simp only [Form.length]; omega
  | jmpIndirectFar os m => have := mem os m; simp only [Form.length]; omega
  | jccShort c os rel => have := p os; simp only [Form.length]; omega
  | jcountShort as os rel => have := p os; have := p as; simp only [Form.length]; omega
  | jmpShort os rel => have := p os; simp only [Form.length]; omega
  | _ => simp only [Form.length]; omega

/-! ### The two directions of the opcode table -/

/-- An instruction is the instruction of its form (30_encoding.md R112). -/
@[simp] theorem Instr.instr_form (i : Instr) : i.form.instr = i := by cases i <;> rfl

/-- A form is the form of its instruction. -/
@[simp] theorem Form.form_instr (f : Form) : f.instr.form = f := by
  cases f with
  | jccShort c os rel => cases c <;> rfl
  | jcountShort as os rel => cases as <;> rfl
  | jccNear16 c rel => cases c <;> rfl
  | jccNear32 c rel => cases c <;> rfl
  | jmpIndirect os op => cases os <;> rfl
  | jmpIndirectFar os m => cases os <;> rfl
  | jmpShort os rel => rfl
  | jmpNear16 rel => rfl
  | jmpNear32 rel => rfl
  | jmpDirectFar16 off sel => rfl
  | jmpDirectFar32 off sel => rfl

end Sys2Proof
end

