-- ==== Sys2Proof/Laws/State.lean ====
section
/-! SUPPORT. One lemma per field of the state for each named update, and the reads that an update leaves alone. -/

namespace Sys2Proof.Machine

@[simp] theorem State.withEip_regs (s : State) (t : Word) : (s.withEip t).regs = s.regs := rfl
@[simp] theorem State.withEip_eip (s : State) (t : Word) : (s.withEip t).eip = t := rfl
@[simp] theorem State.withEip_pastEnd (s : State) (t : Word) : (s.withEip t).pastEnd = s.pastEnd := rfl
@[simp] theorem State.withEip_flags (s : State) (t : Word) : (s.withEip t).flags = s.flags := rfl
@[simp] theorem State.withEip_vm (s : State) (t : Word) : (s.withEip t).vm = s.vm := rfl
@[simp] theorem State.withEip_pe (s : State) (t : Word) : (s.withEip t).pe = s.pe := rfl
@[simp] theorem State.withEip_interruptFlag (s : State) (t : Word) : (s.withEip t).interruptFlag = s.interruptFlag := rfl
@[simp] theorem State.withEip_cs (s : State) (t : Word) : (s.withEip t).cs = s.cs := rfl
@[simp] theorem State.withEip_ss (s : State) (t : Word) : (s.withEip t).ss = s.ss := rfl
@[simp] theorem State.withEip_ds (s : State) (t : Word) : (s.withEip t).ds = s.ds := rfl
@[simp] theorem State.withEip_es (s : State) (t : Word) : (s.withEip t).es = s.es := rfl
@[simp] theorem State.withEip_fs (s : State) (t : Word) : (s.withEip t).fs = s.fs := rfl
@[simp] theorem State.withEip_gs (s : State) (t : Word) : (s.withEip t).gs = s.gs := rfl
@[simp] theorem State.withEip_cpl (s : State) (t : Word) : (s.withEip t).cpl = s.cpl := rfl
@[simp] theorem State.withEip_gdtr (s : State) (t : Word) : (s.withEip t).gdtr = s.gdtr := rfl
@[simp] theorem State.withEip_ldtr (s : State) (t : Word) : (s.withEip t).ldtr = s.ldtr := rfl
@[simp] theorem State.withEip_idtr (s : State) (t : Word) : (s.withEip t).idtr = s.idtr := rfl
@[simp] theorem State.withEip_pagingEnabled (s : State) (t : Word) : (s.withEip t).pagingEnabled = s.pagingEnabled := rfl
@[simp] theorem State.withEip_mem (s : State) (t : Word) : (s.withEip t).mem = s.mem := rfl

@[simp] theorem State.withCs_regs (s : State) (c : Segment) : (s.withCs c).regs = s.regs := rfl
@[simp] theorem State.withCs_eip (s : State) (c : Segment) : (s.withCs c).eip = s.eip := rfl
@[simp] theorem State.withCs_pastEnd (s : State) (c : Segment) : (s.withCs c).pastEnd = s.pastEnd := rfl
@[simp] theorem State.withCs_flags (s : State) (c : Segment) : (s.withCs c).flags = s.flags := rfl
@[simp] theorem State.withCs_vm (s : State) (c : Segment) : (s.withCs c).vm = s.vm := rfl
@[simp] theorem State.withCs_pe (s : State) (c : Segment) : (s.withCs c).pe = s.pe := rfl
@[simp] theorem State.withCs_interruptFlag (s : State) (c : Segment) : (s.withCs c).interruptFlag = s.interruptFlag := rfl
@[simp] theorem State.withCs_cs (s : State) (c : Segment) : (s.withCs c).cs = c := rfl
@[simp] theorem State.withCs_ss (s : State) (c : Segment) : (s.withCs c).ss = s.ss := rfl
@[simp] theorem State.withCs_ds (s : State) (c : Segment) : (s.withCs c).ds = s.ds := rfl
@[simp] theorem State.withCs_es (s : State) (c : Segment) : (s.withCs c).es = s.es := rfl
@[simp] theorem State.withCs_fs (s : State) (c : Segment) : (s.withCs c).fs = s.fs := rfl
@[simp] theorem State.withCs_gs (s : State) (c : Segment) : (s.withCs c).gs = s.gs := rfl
@[simp] theorem State.withCs_cpl (s : State) (c : Segment) : (s.withCs c).cpl = s.cpl := rfl
@[simp] theorem State.withCs_gdtr (s : State) (c : Segment) : (s.withCs c).gdtr = s.gdtr := rfl
@[simp] theorem State.withCs_ldtr (s : State) (c : Segment) : (s.withCs c).ldtr = s.ldtr := rfl
@[simp] theorem State.withCs_idtr (s : State) (c : Segment) : (s.withCs c).idtr = s.idtr := rfl
@[simp] theorem State.withCs_pagingEnabled (s : State) (c : Segment) : (s.withCs c).pagingEnabled = s.pagingEnabled := rfl
@[simp] theorem State.withCs_mem (s : State) (c : Segment) : (s.withCs c).mem = s.mem := rfl

@[simp] theorem State.withMem_regs (s : State) (m : Memory) : (s.withMem m).regs = s.regs := rfl
@[simp] theorem State.withMem_eip (s : State) (m : Memory) : (s.withMem m).eip = s.eip := rfl
@[simp] theorem State.withMem_pastEnd (s : State) (m : Memory) : (s.withMem m).pastEnd = s.pastEnd := rfl
@[simp] theorem State.withMem_flags (s : State) (m : Memory) : (s.withMem m).flags = s.flags := rfl
@[simp] theorem State.withMem_vm (s : State) (m : Memory) : (s.withMem m).vm = s.vm := rfl
@[simp] theorem State.withMem_pe (s : State) (m : Memory) : (s.withMem m).pe = s.pe := rfl
@[simp] theorem State.withMem_interruptFlag (s : State) (m : Memory) : (s.withMem m).interruptFlag = s.interruptFlag := rfl
@[simp] theorem State.withMem_cs (s : State) (m : Memory) : (s.withMem m).cs = s.cs := rfl
@[simp] theorem State.withMem_ss (s : State) (m : Memory) : (s.withMem m).ss = s.ss := rfl
@[simp] theorem State.withMem_ds (s : State) (m : Memory) : (s.withMem m).ds = s.ds := rfl
@[simp] theorem State.withMem_es (s : State) (m : Memory) : (s.withMem m).es = s.es := rfl
@[simp] theorem State.withMem_fs (s : State) (m : Memory) : (s.withMem m).fs = s.fs := rfl
@[simp] theorem State.withMem_gs (s : State) (m : Memory) : (s.withMem m).gs = s.gs := rfl
@[simp] theorem State.withMem_cpl (s : State) (m : Memory) : (s.withMem m).cpl = s.cpl := rfl
@[simp] theorem State.withMem_gdtr (s : State) (m : Memory) : (s.withMem m).gdtr = s.gdtr := rfl
@[simp] theorem State.withMem_ldtr (s : State) (m : Memory) : (s.withMem m).ldtr = s.ldtr := rfl
@[simp] theorem State.withMem_idtr (s : State) (m : Memory) : (s.withMem m).idtr = s.idtr := rfl
@[simp] theorem State.withMem_pagingEnabled (s : State) (m : Memory) : (s.withMem m).pagingEnabled = s.pagingEnabled := rfl
@[simp] theorem State.withMem_mem (s : State) (m : Memory) : (s.withMem m).mem = m := rfl

@[simp] theorem State.fallThrough_eip (s : State) (t : Word) : (s.fallThrough t).eip = t := rfl
@[simp] theorem State.fallThrough_pastEnd (s : State) (t : Word) :
    (s.fallThrough t).pastEnd = (s.pastEnd || decide (t.toNat < s.eip.toNat)) := rfl
@[simp] theorem State.fallThrough_regs (s : State) (t : Word) : (s.fallThrough t).regs = s.regs := rfl
@[simp] theorem State.fallThrough_flags (s : State) (t : Word) : (s.fallThrough t).flags = s.flags := rfl
@[simp] theorem State.fallThrough_vm (s : State) (t : Word) : (s.fallThrough t).vm = s.vm := rfl
@[simp] theorem State.fallThrough_pe (s : State) (t : Word) : (s.fallThrough t).pe = s.pe := rfl
@[simp] theorem State.fallThrough_interruptFlag (s : State) (t : Word) : (s.fallThrough t).interruptFlag = s.interruptFlag := rfl
@[simp] theorem State.fallThrough_cs (s : State) (t : Word) : (s.fallThrough t).cs = s.cs := rfl
@[simp] theorem State.fallThrough_ss (s : State) (t : Word) : (s.fallThrough t).ss = s.ss := rfl
@[simp] theorem State.fallThrough_ds (s : State) (t : Word) : (s.fallThrough t).ds = s.ds := rfl
@[simp] theorem State.fallThrough_es (s : State) (t : Word) : (s.fallThrough t).es = s.es := rfl
@[simp] theorem State.fallThrough_fs (s : State) (t : Word) : (s.fallThrough t).fs = s.fs := rfl
@[simp] theorem State.fallThrough_gs (s : State) (t : Word) : (s.fallThrough t).gs = s.gs := rfl
@[simp] theorem State.fallThrough_cpl (s : State) (t : Word) : (s.fallThrough t).cpl = s.cpl := rfl
@[simp] theorem State.fallThrough_gdtr (s : State) (t : Word) : (s.fallThrough t).gdtr = s.gdtr := rfl
@[simp] theorem State.fallThrough_ldtr (s : State) (t : Word) : (s.fallThrough t).ldtr = s.ldtr := rfl
@[simp] theorem State.fallThrough_idtr (s : State) (t : Word) : (s.fallThrough t).idtr = s.idtr := rfl
@[simp] theorem State.fallThrough_pagingEnabled (s : State) (t : Word) : (s.fallThrough t).pagingEnabled = s.pagingEnabled := rfl
@[simp] theorem State.fallThrough_mem (s : State) (t : Word) : (s.fallThrough t).mem = s.mem := rfl
@[simp] theorem State.fallThrough_mode (s : State) (t : Word) : (s.fallThrough t).mode = s.mode := rfl
@[simp] theorem State.fallThrough_reg (s : State) (t : Word) (r : Reg) : (s.fallThrough t).reg r = s.reg r := by
  cases r <;> rfl

@[simp] theorem State.withEip_mode (s : State) (t : Word) : (s.withEip t).mode = s.mode := rfl
@[simp] theorem State.withEip_reg (s : State) (t : Word) (r : Reg) : (s.withEip t).reg r = s.reg r := by cases r <;> rfl
@[simp] theorem State.withCs_mode (s : State) (c : Segment) : (s.withCs c).mode = s.mode := rfl
@[simp] theorem State.withCs_reg (s : State) (c : Segment) (r : Reg) : (s.withCs c).reg r = s.reg r := by cases r <;> rfl
@[simp] theorem State.withMem_mode (s : State) (m : Memory) : (s.withMem m).mode = s.mode := rfl
@[simp] theorem State.withMem_reg (s : State) (m : Memory) (r : Reg) : (s.withMem m).reg r = s.reg r := by cases r <;> rfl

/-- A state is its own update with its own EIP. -/
@[simp] theorem State.withEip_self (s : State) : s.withEip s.eip = s := rfl

/-- The update of `loadCs`, field by field (42_jmp_far.md R249). -/
theorem State.loadCs_eq (s : State) (sel : Half) (d : Descriptor) (t : Word) :
    s.loadCs sel d t =
      { s with eip := t, cs := { selector := sel, base := d.base, limit := d.limit, ar := d.ar, size := d.size } } := rfl

end Sys2Proof.Machine
end

