-- ==== Sys2Proof/Laws/Ops.lean ====
section
/-! SUPPORT. For each shared operation one lemma that says when it answers and with what; claims about instructions cite
these instead of unfolding the operation. -/

namespace Sys2Proof.Machine

/-! ### Sequencing -/

/-- What a sequence of two computations can answer. -/
theorem bind_ok_iff {ε α β : Type} (x : Except ε α) (f : α → Except ε β) (b : β) :
    (x >>= f) = .ok b ↔ ∃ a, x = .ok a ∧ f a = .ok b := by
  cases x with
  | error e => simp [bind, Except.bind]
  | ok a => simp [bind, Except.bind]

/-- How a sequence of two computations can stop. -/
theorem bind_error_iff {ε α β : Type} (x : Except ε α) (f : α → Except ε β) (e : ε) :
    (x >>= f) = .error e ↔ x = .error e ∨ ∃ a, x = .ok a ∧ f a = .error e := by
  cases x with
  | error e' => simp [bind, Except.bind]
  | ok a => simp [bind, Except.bind]

@[simp] theorem bind_ok {ε α β : Type} (a : α) (f : α → Except ε β) : ((.ok a : Except ε α) >>= f) = f a := rfl

@[simp] theorem bind_error {ε α β : Type} (e : ε) (f : α → Except ε β) : ((.error e : Except ε α) >>= f) = .error e := rfl

@[simp] theorem orRaise_ok_iff (c : Bool) (f : Fault) (u : Unit) : orRaise c f = .ok u ↔ c = true := by
  cases c <;> simp [orRaise]

@[simp] theorem orRaise_error_iff (c : Bool) (f : Fault) (e : Stop) :
    orRaise c f = .error e ↔ c = false ∧ e = .raise f := by
  cases c <;> simp [orRaise, eq_comm]

@[simp] theorem orRefuse_ok_iff (c : Bool) (r : Refusal) (u : Unit) : orRefuse c r = .ok u ↔ c = true := by
  cases c <;> simp [orRefuse]

@[simp] theorem orRefuse_error_iff (c : Bool) (r : Refusal) (e : Stop) :
    orRefuse c r = .error e ↔ c = false ∧ e = .refuse r := by
  cases c <;> simp [orRefuse, eq_comm]

@[simp] theorem orRaise_true (f : Fault) : orRaise true f = .ok () := rfl

@[simp] theorem orRaise_false (f : Fault) : orRaise false f = .error (.raise f) := rfl

@[simp] theorem orRefuse_true (r : Refusal) : orRefuse true r = .ok () := rfl

@[simp] theorem orRefuse_false (r : Refusal) : orRefuse false r = .error (.refuse r) := rfl

/-! ### Outcomes -/

@[simp] theorem finish_ok (s : State) : finish (.ok s) = .next s := rfl

@[simp] theorem finish_raise (f : Fault) : finish (.error (.raise f)) = .fault f := rfl

@[simp] theorem finish_refuse (r : Refusal) : finish (.error (.refuse r)) = .refused r := rfl

@[simp] theorem finish_next_iff (x : Except Stop State) (t : State) : finish x = .next t ↔ x = .ok t := by
  rcases x with (f | r) | s <;> simp

@[simp] theorem finish_fault_iff (x : Except Stop State) (f : Fault) :
    finish x = .fault f ↔ x = .error (.raise f) := by
  rcases x with (f' | r) | s <;> simp

@[simp] theorem finish_refused_iff (x : Except Stop State) (r : Refusal) :
    finish x = .refused r ↔ x = .error (.refuse r) := by
  rcases x with (f | r') | s <;> simp

/-! ### Memory -/

/-- Reading the address just written gives the byte written. -/
theorem Memory.lookup_insert_same (m : Memory) (a : Nat) (v : Byte) (lo : Nat) (h : Memory.wfFrom lo m = true) :
    Memory.lookup (Memory.insert m a v) a = v := by
  induction m generalizing lo with
  | nil => by_cases hv : v = Config.unlistedByte <;> simp [Memory.insert, Memory.lookup, hv]
  | cons p t ih =>
    obtain ⟨k, w⟩ := p
    simp only [Memory.wfFrom, Bool.and_eq_true, decide_eq_true_eq] at h
    obtain ⟨⟨⟨_, _⟩, _⟩, ht⟩ := h
    have above : ∀ b, b < k + 1 → ∀ (t : Memory) lo, k + 1 ≤ lo → Memory.wfFrom lo t = true →
        Memory.lookup t b = Config.unlistedByte := by
      intro b hb t
      induction t with
      | nil => intros; rfl
      | cons q t ih =>
        intro lo hlo hw
        simp only [Memory.wfFrom, Bool.and_eq_true, decide_eq_true_eq] at hw
        simp only [Memory.lookup, show q.1 ≠ b by omega, if_false]
        exact ih (q.1 + 1) (by omega) hw.2
    simp only [Memory.insert]
    split
    · split
      · next ha hv => simp [Memory.lookup, show k ≠ a by omega, above a (by omega) t (k + 1) (by omega) ht, hv]
      · simp [Memory.lookup]
    · split
      · next ha =>
        split
        · next hv => rw [above a (by omega) t (k + 1) (by omega) ht, hv]
        · simp [Memory.lookup]
      · next h1 h2 => simp [Memory.lookup, show k ≠ a by omega, ih (k + 1) ht]

/-- Reading another address than the one written gives what it gave before. -/
theorem Memory.lookup_insert_other (m : Memory) (a b : Nat) (v : Byte) (hab : a ≠ b) :
    Memory.lookup (Memory.insert m a v) b = Memory.lookup m b := by
  induction m with
  | nil => by_cases hv : v = Config.unlistedByte <;> simp [Memory.insert, Memory.lookup, hv, hab]
  | cons p t ih =>
    obtain ⟨k, w⟩ := p
    simp only [Memory.insert]
    split
    · split <;> simp [Memory.lookup, hab]
    · split
      · next h => subst h; split <;> simp [Memory.lookup, hab]
      · simp [Memory.lookup, ih]

/-- A write keeps the canonical form. -/
theorem Memory.insert_wfFrom (m : Memory) (lo a : Nat) (v : Byte) (hlo : lo ≤ a) (ha : a < 2 ^ 32)
    (h : Memory.wfFrom lo m = true) : Memory.wfFrom lo (Memory.insert m a v) = true := by
  induction m generalizing lo with
  | nil => by_cases hv : v = Config.unlistedByte <;> simp [Memory.insert, Memory.wfFrom, hv, hlo]; omega
  | cons p t ih =>
    obtain ⟨k, w⟩ := p
    simp only [Memory.wfFrom, Bool.and_eq_true, decide_eq_true_eq] at h
    obtain ⟨⟨⟨h1, h2⟩, h3⟩, ht⟩ := h
    have weaken : ∀ (t : Memory) l l', l' ≤ l → Memory.wfFrom l t = true → Memory.wfFrom l' t = true := by
      intro t l l' hl hw
      cases t with
      | nil => rfl
      | cons q t =>
        simp only [Memory.wfFrom, Bool.and_eq_true, decide_eq_true_eq] at hw ⊢
        exact ⟨⟨⟨by omega, hw.1.1.2⟩, hw.1.2⟩, hw.2⟩
    simp only [Memory.insert]
    split
    · split
      · simp only [Memory.wfFrom, Bool.and_eq_true, decide_eq_true_eq]; exact ⟨⟨⟨h1, h2⟩, h3⟩, ht⟩
      · next hv =>
        simp only [Memory.wfFrom, Bool.and_eq_true, decide_eq_true_eq]
        exact ⟨⟨⟨hlo, ha⟩, by simpa using hv⟩, ⟨⟨by omega, h2⟩, h3⟩, ht⟩
    · split
      · next hk =>
        split
        · exact weaken t (k + 1) lo (by omega) ht
        · next hv =>
          simp only [Memory.wfFrom, Bool.and_eq_true, decide_eq_true_eq]
          exact ⟨⟨⟨hlo, ha⟩, by simpa using hv⟩, hk ▸ ht⟩
      · next hn hk =>
        simp only [Memory.wfFrom, Bool.and_eq_true, decide_eq_true_eq]
        exact ⟨⟨⟨h1, h2⟩, h3⟩, ih (k + 1) (by omega) ht⟩

/-- Placing a byte keeps the canonical form. -/
theorem Memory.write_wf (m : Memory) (a : Word) (v : Byte) (h : Memory.wf m = true) :
    Memory.wf (Memory.write m a v) = true :=
  Memory.insert_wfFrom m 0 a.toNat v (Nat.zero_le _) a.isLt h

/-- Placing bytes keeps the canonical form. -/
theorem Memory.writeBytes_wf (bs : List Byte) (m : Memory) (a : Word) (h : Memory.wf m = true) :
    Memory.wf (Memory.writeBytes m a bs) = true := by
  induction bs generalizing m a with
  | nil => exact h
  | cons b r ih => exact ih _ _ (Memory.write_wf m a b h)

/-- A byte just placed reads back. -/
theorem Memory.read_write_same (m : Memory) (a : Word) (v : Byte) (h : Memory.wf m = true) :
    Memory.read (Memory.write m a v) a = v :=
  Memory.lookup_insert_same m a.toNat v 0 h

/-- A byte placed elsewhere changes nothing here. -/
theorem Memory.read_write_other (m : Memory) (a b : Word) (v : Byte) (hab : a ≠ b) :
    Memory.read (Memory.write m a v) b = Memory.read m b :=
  Memory.lookup_insert_other m a.toNat b.toNat v fun h => hab (BitVec.eq_of_toNat_eq h)

/-- Memory after reset has the canonical form. -/
theorem State.reset_mem_wf : Memory.wf State.reset.mem = true := rfl

@[simp] theorem Memory.length_readBytes (m : Memory) (a : Word) (n : Nat) : (m.readBytes a n).length = n := by
  induction n generalizing a with
  | zero => rfl
  | succ n ih => simp [Memory.readBytes, ih]

/-- Reading more bytes is reading the first ones and then the rest. -/
theorem Memory.readBytes_add (m : Memory) (a : Word) (n k : Nat) :
    m.readBytes a (n + k) = m.readBytes a n ++ m.readBytes (a + BitVec.ofNat 32 n) k := by
  induction n generalizing a with
  | zero => simp [Memory.readBytes]
  | succ n ih =>
    have e : a + 1 + BitVec.ofNat 32 n = a + BitVec.ofNat 32 (n + 1) := by
      apply BitVec.eq_of_toNat_eq
      simp only [BitVec.toNat_add, BitVec.toNat_ofNat, show (1 : Word).toNat = 1 from rfl]
      omega
    simp only [show n + 1 + k = n + k + 1 by omega, Memory.readBytes, List.cons_append, ih, e]

/-- A number in bytes is below 256 to their count (20_memory.md R62). -/
theorem leNat_lt (bs : List Byte) : leNat bs < 256 ^ bs.length := by
  induction bs with
  | nil => simp [leNat]
  | cons b r ih => have := b.isLt; simp only [leNat, List.length_cons, pow_succ]; omega

/-- A number in bytes splits at any place (20_memory.md R62, R63). -/
theorem leNat_append (a b : List Byte) : leNat (a ++ b) = leNat a + 256 ^ a.length * leNat b := by
  induction a with
  | nil => simp [leNat]
  | cons x r ih => simp only [List.cons_append, leNat, ih, List.length_cons, pow_succ]; ring

/-- Linear memory is readable exactly with paging off (20_memory.md R69). -/
@[simp] theorem State.readLinear_ok_iff (s : State) (a : Word) (n : Nat) (bs : List Byte) :
    s.readLinear a n = .ok bs ↔ s.pagingEnabled = false ∧ bs = s.mem.readBytes a n := by
  cases h : s.pagingEnabled <;> simp [State.readLinear, h, eq_comm]

@[simp] theorem State.memRead_ok_iff (s : State) (a : Word) (n v : Nat) :
    s.memRead a n = .ok v ↔ s.pagingEnabled = false ∧ v = leNat (s.mem.readBytes a n) := by
  simp only [State.memRead, bind_ok_iff, State.readLinear_ok_iff]
  constructor
  · rintro ⟨bs, ⟨h, rfl⟩, hv⟩; cases hv; exact ⟨h, rfl⟩
  · rintro ⟨h, rfl⟩; exact ⟨_, ⟨h, rfl⟩, rfl⟩

/-- The only stop of a memory read is the refusal of paging. -/
theorem State.memRead_error (s : State) (a : Word) (n : Nat) (e : Stop) (h : s.memRead a n = .error e) :
    e = .refuse .pagingOn := by
  cases hp : s.pagingEnabled <;> simp [State.memRead, State.readLinear, hp] at h
  exact h.symm

/-! ### Checked operand reads -/

/-- A checked read in Protected Mode (20_memory.md R66). -/
theorem State.segRead_protected_ok_iff (s : State) (r : SegName) (off : Word) (n v : Nat)
    (hm : s.mode = .protectedMode) :
    s.segRead r off n = .ok v ↔
      (s.seg r).operandOk = true ∧ (s.seg r).accessOk off n = true ∧ s.pagingEnabled = false ∧
        v = leNat (s.mem.readBytes ((s.seg r).base + off) n) := by
  simp [State.segRead, hm, bind_ok_iff]

/-- A checked read in Real Address Mode and V86 mode (20_memory.md R67). -/
theorem State.segRead_real_ok_iff (s : State) (r : SegName) (off : Word) (n v : Nat)
    (hm : s.mode ≠ .protectedMode) :
    s.segRead r off n = .ok v ↔
      off.toNat + n - 1 ≤ Config.realOffsetMax ∧ s.pagingEnabled = false ∧
        v = leNat (s.mem.readBytes ((s.seg r).base + off) n) := by
  cases h : s.mode <;> simp_all [State.segRead, bind_ok_iff]

/-! ### Near transfers -/

/-- A near transfer writes EIP, and only to a target within the limit (41_jmp_near.md R200). -/
@[simp] theorem State.nearTarget_ok_iff (s : State) (t : Word) (s' : State) :
    s.nearTarget t = .ok s' ↔ t.toNat ≤ s.cs.limit.toNat ∧ s' = s.withEip t := by
  unfold State.nearTarget
  split
  · next h => simp [h, eq_comm]
  · next h => cases hm : s.mode <;> simp [h]

/-- How a near transfer stops (40_jcc.md R140, R143; 41_jmp_near.md R206, R207). -/
theorem State.nearTarget_error_iff (s : State) (t : Word) (e : Stop) :
    s.nearTarget t = .error e ↔
      s.cs.limit.toNat < t.toNat ∧
        e = (if s.mode = .protectedMode then .raise (.gp 0) else .refuse .targetBeyondLimit) := by
  unfold State.nearTarget
  split
  · next h => simp; omega
  · next h => cases hm : s.mode <;> simp [eq_comm, show s.cs.limit.toNat < t.toNat by omega]

/-- A conditional jump writes EIP with the target when it is taken, and goes on at `next` when it is not (40_jcc.md R140). -/
theorem State.condJump_ok_iff (s : State) (taken : Bool) (os : Size) (next d : Word) (s' : State) :
    s.condJump taken os next d = .ok s' ↔
      (taken = true ∧ (maskTarget os (next + d)).toNat ≤ s.cs.limit.toNat ∧
          s' = s.withEip (maskTarget os (next + d))) ∨
        (taken = false ∧ s' = s.fallThrough next) := by
  cases taken <;> simp [State.condJump, State.relativeJump, @eq_comm _ s']

/-! ### Far transfers -/

/-- The real or V86 path (42_jmp_far.md R236). -/
theorem State.farRealV86_ok_iff (s : State) (os : Size) (p : FarPointer) (s' : State) :
    s.farRealV86 os p = .ok s' ↔
      (maskTarget os p.off).toNat ≤ Config.realOffsetMax ∧
        s' = (s.withCs { s.cs with selector := p.sel, base := zext16 p.sel * 16 }).withEip (maskTarget os p.off) := by
  simp [State.farRealV86, bind_ok_iff, @eq_comm _ s']

/-- Entering a code segment (42_jmp_far.md R249, R250). -/
@[simp] theorem State.enterCode_ok_iff (s : State) (sel : Half) (d : Descriptor) (t : Word) (s' : State) :
    s.enterCode sel d t = .ok s' ↔ t.toNat ≤ d.limit.toNat ∧ s' = s.loadCs (withRpl sel s.cpl) d t := by
  simp [State.enterCode, bind_ok_iff, @eq_comm _ s']

/-- A selector's descriptor (42_jmp_far.md R237, R245). -/
theorem State.descriptorOrGp_ok_iff (s : State) (sel : Half) (d : Descriptor) :
    s.descriptorOrGp sel = .ok d ↔
      (s.tableOf sel).holds (selIndex sel) = true ∧ s.pagingEnabled = false ∧
        d = { raw := BitVec.ofNat 64
                (leNat (s.mem.readBytes ((s.tableOf sel).base + BitVec.ofNat 32 (8 * selIndex sel)) 8)) } := by
  unfold State.descriptorOrGp State.descriptorLookup
  split
  · next h =>
    cases hp : s.pagingEnabled <;>
      simp [State.memRead, State.readLinear, hp, h, @eq_comm _ d]
  · next h => simp [h]

/-- A conforming target (42_jmp_far.md R238). -/
theorem State.farConforming_ok_iff (s : State) (os : Size) (p : FarPointer) (d : Descriptor) (s' : State) :
    s.farConforming os p d = .ok s' ↔
      (arDpl d.ar).toNat ≤ s.cpl.toNat ∧ arPresent d.ar = true ∧
        (maskTarget os p.off).toNat ≤ d.limit.toNat ∧
        s' = s.loadCs (withRpl p.sel s.cpl) d (maskTarget os p.off) := by
  simp [State.farConforming, bind_ok_iff]

/-- A non-conforming target (42_jmp_far.md R239). -/
theorem State.farNonConforming_ok_iff (s : State) (os : Size) (p : FarPointer) (d : Descriptor) (s' : State) :
    s.farNonConforming os p d = .ok s' ↔
      (selRpl p.sel).toNat ≤ s.cpl.toNat ∧ arDpl d.ar = s.cpl ∧ arPresent d.ar = true ∧
        (maskTarget os p.off).toNat ≤ d.limit.toNat ∧
        s' = s.loadCs (withRpl p.sel s.cpl) d (maskTarget os p.off) := by
  simp [State.farNonConforming, bind_ok_iff]

/-- The checks of a gate (42_jmp_far.md R240, R241). -/
theorem State.gateChecks_ok_iff (s : State) (gsel : Half) (g : Descriptor) (u : Unit) :
    s.gateChecks gsel g = .ok u ↔
      s.cpl.toNat ≤ (arDpl g.ar).toNat ∧ (selRpl gsel).toNat ≤ (arDpl g.ar).toNat ∧ arPresent g.ar = true := by
  simp [State.gateChecks, bind_ok_iff]

/-- A call gate (42_jmp_far.md R240). -/
theorem State.farCallGate_ok_iff (s : State) (os : Size) (gsel : Half) (g : Descriptor) (s' : State) :
    s.farCallGate os gsel g = .ok s' ↔
      s.gateChecks gsel g = .ok () ∧ isNullSel g.gateSelector = false ∧
        ∃ c, s.descriptorOrGp g.gateSelector = .ok c ∧ s.gateTargetOk c = true ∧ arPresent c.ar = true ∧
          (maskTarget os g.gateOffset).toNat ≤ c.limit.toNat ∧
          s' = s.loadCs (withRpl g.gateSelector s.cpl) c (maskTarget os g.gateOffset) := by
  have unit : (∃ u, s.gateChecks gsel g = .ok u) ↔ s.gateChecks gsel g = .ok () :=
    ⟨fun ⟨_, h⟩ => h, fun h => ⟨(), h⟩⟩
  simp [State.farCallGate, bind_ok_iff, unit]

/-- No task switch is ever completed (42_jmp_far.md R252). -/
@[simp] theorem State.switchTasks_ne_ok (tsel : Half) (d : Descriptor) (s' : State) :
    State.switchTasks tsel d ≠ .ok s' := by
  simp [State.switchTasks, bind_ok_iff]

@[simp] theorem State.farTaskGate_ne_ok (s : State) (gsel : Half) (g : Descriptor) (s' : State) :
    s.farTaskGate gsel g ≠ .ok s' := by
  simp [State.farTaskGate, bind_ok_iff]

@[simp] theorem State.farTss_ne_ok (s : State) (tsel : Half) (d : Descriptor) (s' : State) :
    s.farTss tsel d ≠ .ok s' := by
  simp [State.farTss, bind_ok_iff]

/-- A protected far jump that completes went to a code segment, directly or through a call gate (42_jmp_far.md R237). -/
theorem State.farProtected_ok_cases (s : State) (os : Size) (p : FarPointer) (s' : State)
    (h : s.farProtected os p = .ok s') :
    isNullSel p.sel = false ∧
      ∃ d, s.descriptorOrGp p.sel = .ok d ∧
        ((arKind d.ar = .conformingCode ∧ s.farConforming os p d = .ok s') ∨
          (arKind d.ar = .nonConformingCode ∧ s.farNonConforming os p d = .ok s') ∨
          (arKind d.ar = .callGate ∧ s.farCallGate os p.sel d = .ok s')) := by
  simp only [State.farProtected, bind_ok_iff, orRaise_ok_iff] at h
  obtain ⟨_, hn, d, hd, h⟩ := h
  refine ⟨by simpa using hn, d, hd, ?_⟩
  cases hk : arKind d.ar <;> simp only [hk] at h
  · exact .inl ⟨rfl, h⟩
  · exact .inr (.inl ⟨rfl, h⟩)
  · exact .inr (.inr ⟨rfl, h⟩)
  · exact absurd h (State.farTaskGate_ne_ok _ _ _ _)
  · exact absurd h (State.farTss_ne_ok _ _ _ _)
  · cases h

end Sys2Proof.Machine
end

