-- ==== Sys2Proof/Laws/PerInstr.lean ====
section
/-! SUPPORT. Statements for all instructions, one lemma per constructor of `Instr`. -/

namespace Sys2Proof.Laws

/-- The encoder writes exactly the bytes that `instrLength` counts, at least two and at most ten of them (30_encoding.md
R91; 92_eei_decisions.md D29). -/
def EncodedLength.Statement (i : Instr) : Prop :=
  ∀ cs : Size, (encode cs i).length = instrLength cs i ∧ 2 ≤ instrLength cs i ∧ instrLength cs i ≤ Config.maxInstrBytes

/-- The family's lemma for a form, which every instruction's is. -/
theorem EncodedLength.ofForm (i : Instr) : EncodedLength.Statement i :=
  fun cs => ⟨Form.encode_length cs i.form, Form.two_le_length cs i.form, Form.length_le_max cs i.form⟩

theorem EncodedLength.jORel8 (os : Size) (rel : Byte) : EncodedLength.Statement (.jORel8 os rel) := EncodedLength.ofForm _
theorem EncodedLength.jNoRel8 (os : Size) (rel : Byte) : EncodedLength.Statement (.jNoRel8 os rel) := EncodedLength.ofForm _
theorem EncodedLength.jBRel8 (os : Size) (rel : Byte) : EncodedLength.Statement (.jBRel8 os rel) := EncodedLength.ofForm _
theorem EncodedLength.jAeRel8 (os : Size) (rel : Byte) : EncodedLength.Statement (.jAeRel8 os rel) := EncodedLength.ofForm _
theorem EncodedLength.jERel8 (os : Size) (rel : Byte) : EncodedLength.Statement (.jERel8 os rel) := EncodedLength.ofForm _
theorem EncodedLength.jNeRel8 (os : Size) (rel : Byte) : EncodedLength.Statement (.jNeRel8 os rel) := EncodedLength.ofForm _
theorem EncodedLength.jBeRel8 (os : Size) (rel : Byte) : EncodedLength.Statement (.jBeRel8 os rel) := EncodedLength.ofForm _
theorem EncodedLength.jARel8 (os : Size) (rel : Byte) : EncodedLength.Statement (.jARel8 os rel) := EncodedLength.ofForm _
theorem EncodedLength.jSRel8 (os : Size) (rel : Byte) : EncodedLength.Statement (.jSRel8 os rel) := EncodedLength.ofForm _
theorem EncodedLength.jNsRel8 (os : Size) (rel : Byte) : EncodedLength.Statement (.jNsRel8 os rel) := EncodedLength.ofForm _
theorem EncodedLength.jPRel8 (os : Size) (rel : Byte) : EncodedLength.Statement (.jPRel8 os rel) := EncodedLength.ofForm _
theorem EncodedLength.jNpRel8 (os : Size) (rel : Byte) : EncodedLength.Statement (.jNpRel8 os rel) := EncodedLength.ofForm _
theorem EncodedLength.jLRel8 (os : Size) (rel : Byte) : EncodedLength.Statement (.jLRel8 os rel) := EncodedLength.ofForm _
theorem EncodedLength.jGeRel8 (os : Size) (rel : Byte) : EncodedLength.Statement (.jGeRel8 os rel) := EncodedLength.ofForm _
theorem EncodedLength.jLeRel8 (os : Size) (rel : Byte) : EncodedLength.Statement (.jLeRel8 os rel) := EncodedLength.ofForm _
theorem EncodedLength.jGRel8 (os : Size) (rel : Byte) : EncodedLength.Statement (.jGRel8 os rel) := EncodedLength.ofForm _
theorem EncodedLength.jcxzRel8 (os : Size) (rel : Byte) : EncodedLength.Statement (.jcxzRel8 os rel) := EncodedLength.ofForm _
theorem EncodedLength.jecxzRel8 (os : Size) (rel : Byte) : EncodedLength.Statement (.jecxzRel8 os rel) := EncodedLength.ofForm _
theorem EncodedLength.jORel16 (rel : Half) : EncodedLength.Statement (.jORel16 rel) := EncodedLength.ofForm _
theorem EncodedLength.jORel32 (rel : Word) : EncodedLength.Statement (.jORel32 rel) := EncodedLength.ofForm _
theorem EncodedLength.jNoRel16 (rel : Half) : EncodedLength.Statement (.jNoRel16 rel) := EncodedLength.ofForm _
theorem EncodedLength.jNoRel32 (rel : Word) : EncodedLength.Statement (.jNoRel32 rel) := EncodedLength.ofForm _
theorem EncodedLength.jBRel16 (rel : Half) : EncodedLength.Statement (.jBRel16 rel) := EncodedLength.ofForm _
theorem EncodedLength.jBRel32 (rel : Word) : EncodedLength.Statement (.jBRel32 rel) := EncodedLength.ofForm _
theorem EncodedLength.jAeRel16 (rel : Half) : EncodedLength.Statement (.jAeRel16 rel) := EncodedLength.ofForm _
theorem EncodedLength.jAeRel32 (rel : Word) : EncodedLength.Statement (.jAeRel32 rel) := EncodedLength.ofForm _
theorem EncodedLength.jERel16 (rel : Half) : EncodedLength.Statement (.jERel16 rel) := EncodedLength.ofForm _
theorem EncodedLength.jERel32 (rel : Word) : EncodedLength.Statement (.jERel32 rel) := EncodedLength.ofForm _
theorem EncodedLength.jNeRel16 (rel : Half) : EncodedLength.Statement (.jNeRel16 rel) := EncodedLength.ofForm _
theorem EncodedLength.jNeRel32 (rel : Word) : EncodedLength.Statement (.jNeRel32 rel) := EncodedLength.ofForm _
theorem EncodedLength.jBeRel16 (rel : Half) : EncodedLength.Statement (.jBeRel16 rel) := EncodedLength.ofForm _
theorem EncodedLength.jBeRel32 (rel : Word) : EncodedLength.Statement (.jBeRel32 rel) := EncodedLength.ofForm _
theorem EncodedLength.jARel16 (rel : Half) : EncodedLength.Statement (.jARel16 rel) := EncodedLength.ofForm _
theorem EncodedLength.jARel32 (rel : Word) : EncodedLength.Statement (.jARel32 rel) := EncodedLength.ofForm _
theorem EncodedLength.jSRel16 (rel : Half) : EncodedLength.Statement (.jSRel16 rel) := EncodedLength.ofForm _
theorem EncodedLength.jSRel32 (rel : Word) : EncodedLength.Statement (.jSRel32 rel) := EncodedLength.ofForm _
theorem EncodedLength.jNsRel16 (rel : Half) : EncodedLength.Statement (.jNsRel16 rel) := EncodedLength.ofForm _
theorem EncodedLength.jNsRel32 (rel : Word) : EncodedLength.Statement (.jNsRel32 rel) := EncodedLength.ofForm _
theorem EncodedLength.jPRel16 (rel : Half) : EncodedLength.Statement (.jPRel16 rel) := EncodedLength.ofForm _
theorem EncodedLength.jPRel32 (rel : Word) : EncodedLength.Statement (.jPRel32 rel) := EncodedLength.ofForm _
theorem EncodedLength.jNpRel16 (rel : Half) : EncodedLength.Statement (.jNpRel16 rel) := EncodedLength.ofForm _
theorem EncodedLength.jNpRel32 (rel : Word) : EncodedLength.Statement (.jNpRel32 rel) := EncodedLength.ofForm _
theorem EncodedLength.jLRel16 (rel : Half) : EncodedLength.Statement (.jLRel16 rel) := EncodedLength.ofForm _
theorem EncodedLength.jLRel32 (rel : Word) : EncodedLength.Statement (.jLRel32 rel) := EncodedLength.ofForm _
theorem EncodedLength.jGeRel16 (rel : Half) : EncodedLength.Statement (.jGeRel16 rel) := EncodedLength.ofForm _
theorem EncodedLength.jGeRel32 (rel : Word) : EncodedLength.Statement (.jGeRel32 rel) := EncodedLength.ofForm _
theorem EncodedLength.jLeRel16 (rel : Half) : EncodedLength.Statement (.jLeRel16 rel) := EncodedLength.ofForm _
theorem EncodedLength.jLeRel32 (rel : Word) : EncodedLength.Statement (.jLeRel32 rel) := EncodedLength.ofForm _
theorem EncodedLength.jGRel16 (rel : Half) : EncodedLength.Statement (.jGRel16 rel) := EncodedLength.ofForm _
theorem EncodedLength.jGRel32 (rel : Word) : EncodedLength.Statement (.jGRel32 rel) := EncodedLength.ofForm _
theorem EncodedLength.jmpRel8 (os : Size) (rel : Byte) : EncodedLength.Statement (.jmpRel8 os rel) := EncodedLength.ofForm _
theorem EncodedLength.jmpRel16 (rel : Half) : EncodedLength.Statement (.jmpRel16 rel) := EncodedLength.ofForm _
theorem EncodedLength.jmpRel32 (rel : Word) : EncodedLength.Statement (.jmpRel32 rel) := EncodedLength.ofForm _
theorem EncodedLength.jmpRm16 (op : RM) : EncodedLength.Statement (.jmpRm16 op) := EncodedLength.ofForm _
theorem EncodedLength.jmpRm32 (op : RM) : EncodedLength.Statement (.jmpRm32 op) := EncodedLength.ofForm _
theorem EncodedLength.jmpPtr1616 (off : Half) (sel : Half) : EncodedLength.Statement (.jmpPtr1616 off sel) := EncodedLength.ofForm _
theorem EncodedLength.jmpPtr1632 (off : Word) (sel : Half) : EncodedLength.Statement (.jmpPtr1632 off sel) := EncodedLength.ofForm _
theorem EncodedLength.jmpM1616 (m : MemOp) : EncodedLength.Statement (.jmpM1616 m) := EncodedLength.ofForm _
theorem EncodedLength.jmpM1632 (m : MemOp) : EncodedLength.Statement (.jmpM1632 m) := EncodedLength.ofForm _

end Sys2Proof.Laws
end

