-- ==== Sys2Proof/Tests/Slice0.lean ====
section
/-! SUPPORT. Small tests: ill-formed terms, one written-out word for every constructor, single steps from
95_test_vectors.md, and one witness for every statement that has hypotheses. Expected values are the spec's. -/

namespace Sys2Proof.Tests

open Sys2Proof Sys2Proof.Machine

/-! ### Ill-formed terms (30_encoding.md R101 to R103) -/

theorem test_bp_alone_is_ill_formed :
    (Instr.jmpRm16 (.mem ⟨none, .base16 .bp .none⟩)).wellFormed = false := by decide

theorem test_esp_needs_a_sib_byte :
    (Instr.jmpRm32 (.mem ⟨none, .base32 .esp (.d8 4)⟩)).wellFormed = false := by decide

theorem test_ebp_alone_is_ill_formed :
    (Instr.jmpM1632 ⟨none, .base32 .ebp .none⟩).wellFormed = false := by decide

theorem test_esp_is_no_index :
    (Instr.jmpM1616 ⟨none, .sib 0 (some .esp) .eax .none⟩).wellFormed = false := by decide

theorem test_sib_base_ebp_needs_a_displacement :
    (Instr.jmpM1632 ⟨some .fs, .sib 1 (some .ecx) .ebp .none⟩).wellFormed = false := by decide

theorem test_esp_is_no_index_without_a_base :
    (Instr.jmpRm32 (.mem ⟨none, .sibDirect 2 (some .esp) 0⟩)).wellFormed = false := by decide

/-! ### Decoding: words written out from the byte layouts of 30_encoding.md R92 to R106 -/

/-- `70` to `77` with displacement F0 (30_encoding.md R92, R93). -/
theorem test_decode_short_low :
    decode .s32 [0x70, 0xF0] = .ok (.jORel8 .s32 0xF0, []) ∧
      decode .s16 [0x71, 0xF0] = .ok (.jNoRel8 .s16 0xF0, []) ∧
      decode .s32 [0x72, 0xF0] = .ok (.jBRel8 .s32 0xF0, []) ∧
      decode .s16 [0x73, 0xF0] = .ok (.jAeRel8 .s16 0xF0, []) ∧
      decode .s32 [0x74, 0xF0] = .ok (.jERel8 .s32 0xF0, []) ∧
      decode .s16 [0x75, 0xF0] = .ok (.jNeRel8 .s16 0xF0, []) ∧
      decode .s32 [0x76, 0xF0] = .ok (.jBeRel8 .s32 0xF0, []) ∧
      decode .s16 [0x77, 0xF0] = .ok (.jARel8 .s16 0xF0, []) := by decide

/-- `0F 80` to `0F 87` with displacement 0EFC (30_encoding.md R95, R99). -/
theorem test_decode_near16_low :
    decode .s16 [0x0F, 0x80, 0xFC, 0x0E] = .ok (.jORel16 0x0EFC, []) ∧
      decode .s16 [0x0F, 0x81, 0xFC, 0x0E] = .ok (.jNoRel16 0x0EFC, []) ∧
      decode .s16 [0x0F, 0x82, 0xFC, 0x0E] = .ok (.jBRel16 0x0EFC, []) ∧
      decode .s16 [0x0F, 0x83, 0xFC, 0x0E] = .ok (.jAeRel16 0x0EFC, []) ∧
      decode .s16 [0x0F, 0x84, 0xFC, 0x0E] = .ok (.jERel16 0x0EFC, []) ∧
      decode .s16 [0x0F, 0x85, 0xFC, 0x0E] = .ok (.jNeRel16 0x0EFC, []) ∧
      decode .s16 [0x0F, 0x86, 0xFC, 0x0E] = .ok (.jBeRel16 0x0EFC, []) ∧
      decode .s16 [0x0F, 0x87, 0xFC, 0x0E] = .ok (.jARel16 0x0EFC, []) := by decide

/-- The same with a 32-bit displacement (30_encoding.md R95, R99). -/
theorem test_decode_near32_low :
    decode .s32 [0x0F, 0x80, 0x78, 0x56, 0x34, 0x12] = .ok (.jORel32 0x12345678, []) ∧
      decode .s32 [0x0F, 0x81, 0x78, 0x56, 0x34, 0x12] = .ok (.jNoRel32 0x12345678, []) ∧
      decode .s32 [0x0F, 0x82, 0x78, 0x56, 0x34, 0x12] = .ok (.jBRel32 0x12345678, []) ∧
      decode .s32 [0x0F, 0x83, 0x78, 0x56, 0x34, 0x12] = .ok (.jAeRel32 0x12345678, []) ∧
      decode .s32 [0x0F, 0x84, 0x78, 0x56, 0x34, 0x12] = .ok (.jERel32 0x12345678, []) ∧
      decode .s32 [0x0F, 0x85, 0x78, 0x56, 0x34, 0x12] = .ok (.jNeRel32 0x12345678, []) ∧
      decode .s32 [0x0F, 0x86, 0x78, 0x56, 0x34, 0x12] = .ok (.jBeRel32 0x12345678, []) ∧
      decode .s32 [0x0F, 0x87, 0x78, 0x56, 0x34, 0x12] = .ok (.jARel32 0x12345678, []) := by decide

/-- `78` to `7F` with displacement F0 (30_encoding.md R92, R93). -/
theorem test_decode_short_high :
    decode .s32 [0x78, 0xF0] = .ok (.jSRel8 .s32 0xF0, []) ∧
      decode .s16 [0x79, 0xF0] = .ok (.jNsRel8 .s16 0xF0, []) ∧
      decode .s32 [0x7A, 0xF0] = .ok (.jPRel8 .s32 0xF0, []) ∧
      decode .s16 [0x7B, 0xF0] = .ok (.jNpRel8 .s16 0xF0, []) ∧
      decode .s32 [0x7C, 0xF0] = .ok (.jLRel8 .s32 0xF0, []) ∧
      decode .s16 [0x7D, 0xF0] = .ok (.jGeRel8 .s16 0xF0, []) ∧
      decode .s32 [0x7E, 0xF0] = .ok (.jLeRel8 .s32 0xF0, []) ∧
      decode .s16 [0x7F, 0xF0] = .ok (.jGRel8 .s16 0xF0, []) := by decide

/-- `0F 88` to `0F 8F` with displacement 0EFC (30_encoding.md R95, R99). -/
theorem test_decode_near16_high :
    decode .s16 [0x0F, 0x88, 0xFC, 0x0E] = .ok (.jSRel16 0x0EFC, []) ∧
      decode .s16 [0x0F, 0x89, 0xFC, 0x0E] = .ok (.jNsRel16 0x0EFC, []) ∧
      decode .s16 [0x0F, 0x8A, 0xFC, 0x0E] = .ok (.jPRel16 0x0EFC, []) ∧
      decode .s16 [0x0F, 0x8B, 0xFC, 0x0E] = .ok (.jNpRel16 0x0EFC, []) ∧
      decode .s16 [0x0F, 0x8C, 0xFC, 0x0E] = .ok (.jLRel16 0x0EFC, []) ∧
      decode .s16 [0x0F, 0x8D, 0xFC, 0x0E] = .ok (.jGeRel16 0x0EFC, []) ∧
      decode .s16 [0x0F, 0x8E, 0xFC, 0x0E] = .ok (.jLeRel16 0x0EFC, []) ∧
      decode .s16 [0x0F, 0x8F, 0xFC, 0x0E] = .ok (.jGRel16 0x0EFC, []) := by decide

/-- The same with a 32-bit displacement (30_encoding.md R95, R99). -/
theorem test_decode_near32_high :
    decode .s32 [0x0F, 0x88, 0x78, 0x56, 0x34, 0x12] = .ok (.jSRel32 0x12345678, []) ∧
      decode .s32 [0x0F, 0x89, 0x78, 0x56, 0x34, 0x12] = .ok (.jNsRel32 0x12345678, []) ∧
      decode .s32 [0x0F, 0x8A, 0x78, 0x56, 0x34, 0x12] = .ok (.jPRel32 0x12345678, []) ∧
      decode .s32 [0x0F, 0x8B, 0x78, 0x56, 0x34, 0x12] = .ok (.jNpRel32 0x12345678, []) ∧
      decode .s32 [0x0F, 0x8C, 0x78, 0x56, 0x34, 0x12] = .ok (.jLRel32 0x12345678, []) ∧
      decode .s32 [0x0F, 0x8D, 0x78, 0x56, 0x34, 0x12] = .ok (.jGeRel32 0x12345678, []) ∧
      decode .s32 [0x0F, 0x8E, 0x78, 0x56, 0x34, 0x12] = .ok (.jLeRel32 0x12345678, []) ∧
      decode .s32 [0x0F, 0x8F, 0x78, 0x56, 0x34, 0x12] = .ok (.jGRel32 0x12345678, []) := by decide

/-- `E3` by address size (30_encoding.md R94, R104). -/
theorem test_decode_count_jumps :
    decode .s16 [0xE3, 0x05] = .ok (.jcxzRel8 .s16 0x05, []) ∧
      decode .s32 [0xE3, 0x0B] = .ok (.jecxzRel8 .s32 0x0B, []) ∧
      decode .s32 [0x66, 0x67, 0xE3, 0x80] = .ok (.jcxzRel8 .s16 0x80, []) := by decide

/-- `EB`, `E9` (30_encoding.md R96). -/
theorem test_decode_near_jmp :
    decode .s16 [0xEB, 0xFE] = .ok (.jmpRel8 .s16 0xFE, []) ∧
      decode .s16 [0xE9, 0xFD, 0x0E] = .ok (.jmpRel16 0x0EFD, []) ∧
      decode .s32 [0xE9, 0xFB, 0x0F, 0x00, 0x00] = .ok (.jmpRel32 0x00000FFB, []) := by decide

/-- `FF /4` with a register and through memory (30_encoding.md R97, R100 to R103). -/
theorem test_decode_indirect_jmp :
    decode .s16 [0xFF, 0xE3] = .ok (.jmpRm16 (.reg .ebx), []) ∧
      decode .s32 [0xFF, 0xE0] = .ok (.jmpRm32 (.reg .eax), []) ∧
      decode .s16 [0xFF, 0x26, 0x00, 0x30] = .ok (.jmpRm16 (.mem ⟨none, .direct16 0x3000⟩), []) ∧
      decode .s32 [0xFF, 0x64, 0x24, 0x04] = .ok (.jmpRm32 (.mem ⟨none, .sib 0 none .esp (.d8 0x04)⟩), []) := by decide

/-- `EA` and `FF /5` (30_encoding.md R97, R98; 20_memory.md R63). -/
theorem test_decode_far_jmp :
    decode .s16 [0xEA, 0x78, 0x56, 0x34, 0x12] = .ok (.jmpPtr1616 0x5678 0x1234, []) ∧
      decode .s32 [0xEA, 0x00, 0x20, 0x00, 0x00, 0x08, 0x00] = .ok (.jmpPtr1632 0x00002000 0x0008, []) ∧
      decode .s16 [0xFF, 0x2E, 0x00, 0x30] = .ok (.jmpM1616 ⟨none, .direct16 0x3000⟩, []) ∧
      decode .s32 [0x64, 0xFF, 0x2D, 0x00, 0x30, 0x00, 0x00] = .ok (.jmpM1632 ⟨some .fs, .direct32 0x00003000⟩, []) := by decide

/-- Other opcodes are refused by name, the register form of `FF /5` is illegal, and bytes can run out (30_encoding.md R106,
R108; 20_memory.md R70). -/
theorem test_decode_rejects :
    decode .s32 [0xFF, 0x10] = .error .notInSpec ∧
      decode .s32 [0x0F, 0x90, 0x00] = .error .notInSpec ∧
      decode .s32 [0x90] = .error .notInSpec ∧
      decode .s32 [0xFF, 0xE8] = .error .invalidOpcode ∧
      decode .s16 [0x66, 0xE9, 0x00, 0x00] = .error .truncated := by decide

/-- A row's bits, the first byte lowest (log 27). -/
theorem test_decode_table_word :
    decodeTableWord 8 0x74 = some (.jERel8 .s16 0x00) ∧
      decodeTableWord 16 0x840F = some (.jERel16 0x0000) ∧
      decodeTableWord 48 0x12345678840F = some (.jERel32 0x12345678) := by decide

/-! ### Start states

The conventions of 95_test_vectors.md, Part 2: bases 0, limits FFFFFFFF in Protected Mode and FFFF in the other two. -/

/-- A data segment. -/
def dataSegment (limit : Word) : Segment := { selector := 0x0010, base := 0, limit := limit, ar := 0x93, size := .s32 }

/-- Protected Mode in a 32-bit code segment. -/
def prot32 (eip : Word) (m : Memory) : State :=
  { State.reset with
    eip := eip
    pe := true
    cs := { selector := 0x0008, base := 0, limit := 0xFFFFFFFF, ar := 0x9B, size := .s32 }
    ss := dataSegment 0xFFFFFFFF
    ds := dataSegment 0xFFFFFFFF
    es := dataSegment 0xFFFFFFFF
    gdtr := { base := 0x00010000, limit := 0x006F }
    mem := m }

/-- Protected Mode in a 16-bit code segment. -/
def prot16 (eip : Word) (m : Memory) : State :=
  { prot32 eip m with cs := { selector := 0x0008, base := 0, limit := 0x0000FFFF, ar := 0x9B, size := .s16 } }

/-- Real Address Mode. -/
def real16 (eip : Word) (m : Memory) : State :=
  { State.reset with
    eip := eip
    cs := { selector := 0x0000, base := 0, limit := 0x0000FFFF, ar := 0x93, size := .s16 }
    mem := m }

/-- V86 mode. -/
def v86 (eip : Word) (m : Memory) : State :=
  { real16 eip m with pe := true, vm := true, cpl := 3 }

/-- Flags with ZF set. -/
def zfSet : Flags := { cf := false, pf := false, zf := true, sf := false, of := false }

/-- Bytes at an address, on top of a memory. -/
def put (m : Memory) (a : Word) (bs : List Byte) : Memory := Memory.writeBytes m a bs

/-- One entry of the descriptor table, for selector 0008. -/
def entry (bs : List Byte) : Memory := put [] 0x00010008 bs

/-- Protected Mode with an entry for selector 0008 whose Access Rights byte is given: base 0, limit FFFFF pages, 32-bit. -/
def withEntry (ar : Byte) : State := prot32 0x1000 (entry [0xFF, 0xFF, 0x00, 0x00, 0x00, ar, 0xCF, 0x00])

/-- Protected Mode with a stack segment of limit 3FFF. -/
def ssStart : State := { prot32 0x1000 [] with ss := dataSegment 0x3FFF }

/-- Real Address Mode with ES, FS and GS at bases of their own, a word at offset 3000 of each (95_test_vectors.md T51). -/
def esStart : State :=
  { real16 0x0100 (put (put (put [] 0x23000 [0x00, 0x40]) 0x33000 [0x00, 0x50]) 0x43000 [0x00, 0x60]) with
    es := { State.reset.es with base := 0x00020000 }
    fs := { State.reset.fs with base := 0x00030000 }
    gs := { State.reset.gs with base := 0x00040000 } }

/-- Protected Mode in a 16-bit code segment with a segment in DS. -/
def throughDs (g : Segment) : State := { prot16 0x0100 [] with ds := g }

/-- A state with ZF set. -/
def withZf (s : State) : State := { s with flags := zfSet }

/-- A JE whose last byte is at offset FFFFFFFF, and a jump to itself at offset 0. -/
def lastJe : State := prot32 0xFFFFFFFE (put (put [] 0x00000000 [0xEB, 0xFE]) 0xFFFFFFFE [0x74, 0x10])

/-- A state with EAX = 10000. -/
def eaxAt64K (s : State) : State := { s with regs := { s.regs with eax := 0x00010000 } }

/-- The far jump of the witnesses, to 0008:00001000. -/
def farTo8 : Instr := .jmpPtr1632 0x00001000 0x0008

/-! ### Single steps (95_test_vectors.md) -/

/-- T1 and T2: JE forward, taken and not. -/
theorem test_je_taken_and_not :
    (nextState (step { prot32 0x1000 (put [] 0x1000 [0x74, 0x10]) with flags := zfSet })).map State.eip = some 0x1012 ∧
      (nextState (step (prot32 0x1000 (put [] 0x1000 [0x74, 0x10])))).map State.eip = some 0x1002 := by decide

/-- T8: a 16-bit target wraps past FFFF. -/
theorem test_short_wraps_in_64k :
    (nextState (step { real16 0xFFF8 (put [] 0xFFF8 [0x74, 0x10]) with flags := zfSet })).map State.eip =
      some 0x0000000A := by decide

/-- Running past 2^32 - 1 is refused at the next fetch (20_memory.md R70; 93_implementation_defined.md U4), while the same
jump taken to offset 0 goes on (40_jcc.md R140). -/
theorem test_sequential_execution_does_not_wrap :
    (nextState (step lastJe)).map (fun t => (t.eip, refusalOf (step t))) = some (0x00000000, some .fetchBeyondLimit) ∧
      (nextState (step { withZf lastJe with mem := put lastJe.mem 0xFFFFFFFF [0x00] })).map
        (fun t => (t.eip, (nextState (step t)).map State.eip)) = some (0x00000000, some 0x00000000) := by decide

/-- T5: JLE is taken on ZF = 1 with SF = OF. -/
theorem test_jle_connective_is_or :
    (nextState (step { prot32 0x1000 (put [] 0x1000 [0x7E, 0x10]) with flags := zfSet })).map State.eip =
      some 0x1012 := by decide

/-- T12 and T13: CX = 0 while ECX is not. -/
theorem test_count_jumps_by_address_size :
    (nextState (step { real16 0x0100 (put [] 0x0100 [0xE3, 0x05]) with
        regs := { State.reset.regs with ecx := 0x00010000 } })).map State.eip = some 0x0107 ∧
      (nextState (step { real16 0x0100 (put [] 0x0100 [0x67, 0xE3, 0x05]) with
        regs := { State.reset.regs with ecx := 0x00010000 } })).map State.eip = some 0x0103 := by decide

/-- T21 and T23: a taken target beyond the limit, in Protected Mode and in Real Address Mode. -/
theorem test_taken_target_beyond_limit :
    faultOf (step { prot16 0xFFF0 (put [] 0xFFF0 [0x66, 0x74, 0x20]) with flags := zfSet }) = some (.gp 0) ∧
      refusalOf (step { real16 0xFFF0 (put [] 0xFFF0 [0x66, 0x74, 0x20]) with flags := zfSet }) =
        some .targetBeyondLimit := by decide

/-- T36: JMP rel32 backwards across 0. -/
theorem test_jmp_rel32_wraps :
    (nextState (step (prot32 0 (put [] 0 [0xE9, 0xF6, 0xFF, 0xFF, 0xFF])))).map State.eip = some 0xFFFFFFFB := by decide

/-- T38: the upper half of EBX is ignored. -/
theorem test_jmp_rm16_register :
    (nextState (step { real16 0x0100 (put [] 0x0100 [0xFF, 0xE3]) with
        regs := { State.reset.regs with ebx := 0xABCD2000 } })).map State.eip = some 0x2000 := by decide

/-- T43: through a scaled index. -/
theorem test_jmp_rm32_sib :
    (nextState (step { prot32 0x1002 (put (put [] 0x1002 [0xFF, 0x24, 0x8D, 0x00, 0x30, 0x00, 0x00]) 0x3008 [0x00, 0x60]) with
        regs := { State.reset.regs with ecx := 2 } })).map State.eip = some 0x6000 := by decide

/-- T51: through ES by an override; the same bytes with FS and GS in front read through those. -/
theorem test_operand_through_an_override :
    (nextState (step (esStart.withMem (put esStart.mem 0x0100 [0x26, 0xFF, 0x26, 0x00, 0x30])))).map State.eip = some 0x4000 ∧
      (nextState (step (esStart.withMem (put esStart.mem 0x0100 [0x64, 0xFF, 0x26, 0x00, 0x30])))).map State.eip = some 0x5000 ∧
      (nextState (step (esStart.withMem (put esStart.mem 0x0100 [0x65, 0xFF, 0x26, 0x00, 0x30])))).map State.eip =
        some 0x6000 := by decide

/-- Readable code and read-only data may be read through (20_memory.md R66; 42_jmp_far.md R246). -/
theorem test_operand_in_code_and_in_read_only_data :
    ∀ ar ∈ [0x90#8, 0x9A#8, 0x9E#8],
      (nextState (exec (.jmpRm16 (.mem ⟨none, .direct16 0⟩)) (throughDs { dataSegment 0xFFFF with ar := ar }))).isSome =
        true := by decide

/-- T46: an operand beyond SS.limit. -/
theorem test_operand_beyond_ss :
    faultOf (step { prot32 0x1000 (put [] 0x1000 [0xFF, 0x64, 0x24, 0x04]) with
        regs := { State.reset.regs with esp := 0x3FFC }
        ss := dataSegment 0x3FFF }) = some (.ss 0) := by decide

/-- T47 and T48: an operand across offset FFFF. -/
theorem test_operand_across_64k :
    faultOf (step (real16 0x0100 (put [] 0x0100 [0xFF, 0x26, 0xFF, 0xFF]))) = some .interrupt13 ∧
      faultOf (step (v86 0x0100 (put [] 0x0100 [0xFF, 0x26, 0xFF, 0xFF]))) = some .interrupt13 := by decide

/-- T60: a far jump in Real Address Mode. -/
theorem test_far_real :
    (nextState (step (real16 0x0002 (put [] 0x0002 [0xEA, 0x34, 0x12, 0x00, 0x20])))).map
        (fun t => (t.eip, t.cs)) =
      some (0x1234, { selector := 0x2000, base := 0x00020000, limit := 0xFFFF, ar := 0x93, size := .s16 }) := by decide

/-- T62: through memory. -/
theorem test_far_m1616 :
    (nextState (step (real16 0x0100 (put (put [] 0x0100 [0xFF, 0x2E, 0x00, 0x30]) 0x3000 [0x00, 0x01, 0x00, 0xF0])))).map
        (fun t => (t.eip, t.cs.selector, t.cs.base)) = some (0x0100, 0xF000, 0x000F0000) := by decide

/-- T66: the register form of `FF /5`. -/
theorem test_far_register_form :
    faultOf (step (real16 0x0100 (put [] 0x0100 [0xFF, 0xE8]))) = some .invalidOpcode := by decide

/-- T70: a far jump to a non-conforming code segment. -/
theorem test_far_nonconforming :
    (nextState (exec farTo8 (withEntry 0x9A))).map (fun t => (t.eip, t.cs)) =
      some (0x1000, { selector := 0x0008, base := 0, limit := 0xFFFFFFFF, ar := 0x9A, size := .s32 }) := by decide

/-- T78: the RPL of the selector above CPL. -/
theorem test_far_rpl_check :
    faultOf (exec (.jmpPtr1632 0x1000 0x000B) (withEntry 0x9A)) = some (.gp 0x000B) := by decide

/-- T82: a conforming segment from CPL 3; the RPL field of CS becomes 3. -/
theorem test_far_conforming_rpl :
    (nextState (exec farTo8 { withEntry 0x9E with cpl := 3 })).map (fun t => (t.cs.selector, t.cpl)) =
      some (0x000B, 3) := by decide

/-- T84: a call gate gives CS and EIP. -/
theorem test_far_call_gate :
    (nextState (exec (.jmpPtr1632 0xDEAD 0x0010)
        (prot32 0x1000 (put (entry [0xFF, 0xFF, 0x00, 0x00, 0x00, 0x9A, 0xCF, 0x00]) 0x00010010
          [0x00, 0x20, 0x08, 0x00, 0x00, 0x8C, 0x00, 0x00])))).map (fun t => (t.eip, t.cs.selector)) =
      some (0x2000, 0x0008) := by decide

/-- A task state segment that is available, present and reachable (42_jmp_far.md R242, R252). -/
theorem test_far_task_switch_is_refused :
    refusalOf (exec farTo8 (withEntry 0x89)) = some .taskSwitch := by decide

/-- From reset the first step fetches zeros (log 27). -/
theorem test_reset_fetches_zeros : refusalOf (step State.reset) = some .notInSpec := by decide

/-- The word placed for the first step runs (log 27): JMP rel8 with displacement 04. -/
theorem test_with_fetch_word :
    (nextState (step (State.reset.withFetchWord 16 0x04EB))).map State.eip = some 0xFFF6 := by decide

/-! ### Witnesses

For every statement of Obligations.lean that has hypotheses: a state and operands that meet all of them together, each
clause at a boundary of its range. -/

theorem witness_DecodeOfEncodeIsIdentity :
    (Instr.jmpM1632 ⟨some .fs, .sib 3 (some .edi) .ebp (.d8 0x80)⟩).wellFormed = true :=
  by decide

theorem witness_DecodedIsWellFormedAndTakesItsLength :
    decode .s16 [0x26, 0xFF, 0x26, 0x00, 0x30, 0x90] = .ok (.jmpRm16 (.mem ⟨some .es, .direct16 0x3000⟩), [0x90]) :=
  by decide

/-- The bytes end at the last offset of the segment, bare and behind prefix 66. -/
theorem witness_RegisterFarIndirectIsInvalid :
    ((real16 0xFFFE (put [] 0xFFFE [0xFF, 0xE8])).pagingEnabled = false ∧ (real16 0xFFFE (put [] 0xFFFE [0xFF, 0xE8])).pastEnd = false ∧
      (real16 0xFFFE (put [] 0xFFFE [0xFF, 0xE8])).mem.readBytes
        ((real16 0xFFFE (put [] 0xFFFE [0xFF, 0xE8])).cs.base + (real16 0xFFFE (put [] 0xFFFE [0xFF, 0xE8])).eip) 2 =
          [0xFF, 3#2 ++ 5#3 ++ 0#3] ∧
      (real16 0xFFFE (put [] 0xFFFE [0xFF, 0xE8])).eip.toNat + 2 ≤
        (real16 0xFFFE (put [] 0xFFFE [0xFF, 0xE8])).cs.limit.toNat + 1) ∧
      ((real16 0xFFFD (put [] 0xFFFD [0x66, 0xFF, 0xEF])).pagingEnabled = false ∧ (real16 0xFFFD (put [] 0xFFFD [0x66, 0xFF, 0xEF])).pastEnd = false ∧
      (real16 0xFFFD (put [] 0xFFFD [0x66, 0xFF, 0xEF])).mem.readBytes
        ((real16 0xFFFD (put [] 0xFFFD [0x66, 0xFF, 0xEF])).cs.base +
          (real16 0xFFFD (put [] 0xFFFD [0x66, 0xFF, 0xEF])).eip) 3 = [0x66, 0xFF, 3#2 ++ 5#3 ++ 7#3] ∧
      (real16 0xFFFD (put [] 0xFFFD [0x66, 0xFF, 0xEF])).eip.toNat + 3 ≤
        (real16 0xFFFD (put [] 0xFFFD [0x66, 0xFF, 0xEF])).cs.limit.toNat + 1) :=
  by decide

/-- The stacks 66 67, 2E 66, 26 and 2E 36 before the opcodes 70, EB and E3, and the stacks 66 67 66 and 65 64 themselves. -/
theorem witness_IdleAndRepeatedPrefixesAreRefused :
    (∀ ps ∈ [[0x66#8, 0x67#8], [0x2E#8, 0x66#8], [0x26#8], [0x66#8, 0x67#8, 0x66#8], [0x65#8, 0x64#8]],
        ∀ p ∈ ps, p ∈ prefixBytes) ∧
      (∃ p ∈ [0x66#8, 0x67#8], p ∈ 0x67#8 :: overrideBytes) ∧ isPlainOpcode 0x70 = true ∧ isPlainOpcode 0x7F = true ∧
      (∃ p ∈ [0x2E#8, 0x66#8], p ∈ 0x67#8 :: overrideBytes) ∧ isPlainOpcode 0xEB = true ∧
      (∃ p ∈ [0x26#8], p ∈ overrideBytes) ∧
      ¬ [0x66#8, 0x67#8, 0x66#8].Nodup ∧
      2 ≤ ([0x65#8, 0x64#8].filter fun p => overrideBytes.contains p).length ∧ 0xF3#8 ∈ [0xF0#8, 0xF2#8, 0xF3#8] :=
  by decide

/-- The least and the greatest opcode byte that the spec does not have, the second bytes beside 80 and 8F, and FF with `reg`
3 and 6 in the least and the greatest `mod`; NOP at the last offset of its segment, and FF /6 there behind 66. -/
theorem witness_UnmappedBytesAreRefused :
    (∀ tail ∈ [[0x00#8], [0xFE#8], [0x0F#8, 0x7F#8], [0x0F#8, 0x90#8], [0xFF#8, 0x18#8], [0xFF#8, 0xF7#8]],
        isUnmapped tail = true) ∧
      (isUnmapped [0x90] = true ∧ (real16 0xFFFF (put [] 0xFFFF [0x90])).pagingEnabled = false ∧ (real16 0xFFFF (put [] 0xFFFF [0x90])).pastEnd = false ∧
      (real16 0xFFFF (put [] 0xFFFF [0x90])).mem.readBytes
        ((real16 0xFFFF (put [] 0xFFFF [0x90])).cs.base + (real16 0xFFFF (put [] 0xFFFF [0x90])).eip) 1 = [0x90] ∧
      (real16 0xFFFF (put [] 0xFFFF [0x90])).eip.toNat + 1 ≤ (real16 0xFFFF (put [] 0xFFFF [0x90])).cs.limit.toNat + 1) ∧
      0x66 ∈ prefixBytes ∧ isUnmapped [0xFF, 0xF0] = true ∧
      (real16 0xFFFD (put [] 0xFFFD [0x66, 0xFF, 0xF0])).mem.readBytes
        ((real16 0xFFFD (put [] 0xFFFD [0x66, 0xFF, 0xF0])).cs.base +
          (real16 0xFFFD (put [] 0xFFFD [0x66, 0xFF, 0xF0])).eip) 3 = [0x66, 0xFF, 0xF0] ∧
      (real16 0xFFFD (put [] 0xFFFD [0x66, 0xFF, 0xF0])).eip.toNat + 3 ≤
        (real16 0xFFFD (put [] 0xFFFD [0x66, 0xFF, 0xF0])).cs.limit.toNat + 1 :=
  by decide

theorem witness_PrefixesComeInAnyOrder :
    (∀ x ∈ [0x66#8], x ∈ prefixBytes) ∧ 0x67#8 ∈ prefixBytes ∧ 0x65#8 ∈ prefixBytes :=
  by decide

theorem witness_EffectiveAddress16 : (7 : BitVec 3) ≠ 6 ∧ (0 : BitVec 3) ≠ 6 := by decide

theorem witness_EffectiveAddressSib : (4 : BitVec 3) ≠ 5 ∧ (0 : BitVec 3) ≠ 5 := by decide

/-- No other prefix, and the stack 67 2E; with it `FF 28` is read through CS at a 16-bit address in a 32-bit segment. -/
theorem witness_OperandSizePrefixPicksTheOtherForm :
    isPlainOpcode 0x7F = true ∧ isPlainOpcode 0x0F = true ∧
      (∀ p ∈ ([] : List Byte), p ∈ prefixBytes ∧ p ≠ 0x66) ∧ (∀ p ∈ [0x67#8, 0x2E#8], p ∈ prefixBytes ∧ p ≠ 0x66) ∧
      0xE3#8 ∈ [0xE3#8, 0xFF#8] ∧ 0xFF#8 ∈ [0xE3#8, 0xFF#8] ∧
      decode .s32 [0x66, 0x67, 0x2E, 0xFF, 0x28] = .ok (.jmpM1616 ⟨some .cs, .base16 .bxSi .none⟩, []) :=
  by decide

theorem witness_EffectiveAddress32 :
    ((0 : BitVec 3) ≠ 4 ∧ (0 : BitVec 3) ≠ 5) ∧ (5 : BitVec 3) ≠ 4 ∧ (7 : BitVec 3) ≠ 4 :=
  by decide

theorem witness_SegmentOverrideReplacesTheDefault :
    ((Addr.base16 .bp (.d8 0x80)).wellFormed = true ∧ (Addr.base16 .bp (.d8 0x80)).size = .s16) ∧
      ((Addr.sibDirect 3 none 0x3000).wellFormed = true ∧ (Addr.sibDirect 3 none 0x3000).size = .s32) ∧
      (0x65, SegName.gs) ∈ overrideTable ∧ readable esStart ⟨some .es, .direct16 0xFFFE⟩ 2 = true ∧
      readable ssStart ⟨some .ss, .direct32 0x3FFC⟩ 4 = true :=
  by decide

theorem witness_MemReadIsLittleEndian :
    (prot32 0x1000 []).pagingEnabled = false :=
  by decide

/-- The instruction ends at the last offset of its segment. -/
theorem witness_StepRunsTheDecodedInstruction :
    (real16 0xFFFE (put [] 0xFFFE [0x74, 0x10])).pagingEnabled = false ∧ (real16 0xFFFE (put [] 0xFFFE [0x74, 0x10])).pastEnd = false ∧
      decode (real16 0xFFFE (put [] 0xFFFE [0x74, 0x10])).cs.size
        ((real16 0xFFFE (put [] 0xFFFE [0x74, 0x10])).mem.readBytes
          ((real16 0xFFFE (put [] 0xFFFE [0x74, 0x10])).cs.base + (real16 0xFFFE (put [] 0xFFFE [0x74, 0x10])).eip)
          (min 10 ((real16 0xFFFE (put [] 0xFFFE [0x74, 0x10])).cs.limit.toNat + 1 -
            (real16 0xFFFE (put [] 0xFFFE [0x74, 0x10])).eip.toNat))) = .ok (.jERel8 .s16 0x10, []) :=
  by decide

/-- Each reason: NOP, the register form of `FF /5`, and a JE whose displacement would lie beyond the limit. -/
theorem witness_StepStopsWhereNothingDecodes :
    ∀ row ∈ [(real16 0x0100 (put [] 0x0100 [0x90]), Reject.notInSpec),
        (real16 0x0100 (put [] 0x0100 [0xFF, 0xE8]), Reject.invalidOpcode),
        (real16 0xFFFF (put [] 0xFFFF [0x74]), Reject.truncated)],
      row.1.pagingEnabled = false ∧ row.1.pastEnd = false ∧
        decode row.1.cs.size (row.1.mem.readBytes (row.1.cs.base + row.1.eip)
          (min 10 (row.1.cs.limit.toNat + 1 - row.1.eip.toNat))) = .error row.2 :=
  by decide

theorem witness_InstructionInMemoryRuns :
    (real16 0xFFFE (put [] 0xFFFE [0x74, 0x10])).pagingEnabled = false ∧ (real16 0xFFFE (put [] 0xFFFE [0x74, 0x10])).pastEnd = false ∧ (Instr.jERel8 .s16 0x10).wellFormed = true ∧
      (real16 0xFFFE (put [] 0xFFFE [0x74, 0x10])).mem.readBytes ((real16 0xFFFE (put [] 0xFFFE [0x74, 0x10])).cs.base + (real16 0xFFFE (put [] 0xFFFE [0x74, 0x10])).eip)
        (instrLength (real16 0xFFFE (put [] 0xFFFE [0x74, 0x10])).cs.size (Instr.jERel8 .s16 0x10)) = encode (real16 0xFFFE (put [] 0xFFFE [0x74, 0x10])).cs.size (Instr.jERel8 .s16 0x10) ∧
      (real16 0xFFFE (put [] 0xFFFE [0x74, 0x10])).eip.toNat + instrLength (real16 0xFFFE (put [] 0xFFFE [0x74, 0x10])).cs.size (Instr.jERel8 .s16 0x10) ≤ (real16 0xFFFE (put [] 0xFFFE [0x74, 0x10])).cs.limit.toNat + 1 :=
  by decide

theorem witness_FetchBeyondLimitAndPagingAreRefused :
    ({ real16 0x0100 [] with pagingEnabled := true } : State).pagingEnabled = true ∧
      ((real16 0x00010000 []).pagingEnabled = false ∧
        (real16 0x00010000 []).cs.limit.toNat < (real16 0x00010000 []).eip.toNat) ∧
      (({ lastJe with pastEnd := true } : State).pagingEnabled = false ∧
        ({ lastJe with pastEnd := true } : State).pastEnd = true) ∧
      (real16 0xFFFF (put [] 0xFFFF [0x74, 0x10])).pagingEnabled = false ∧ (Instr.jERel8 .s16 0x10).wellFormed = true ∧
      (real16 0xFFFF (put [] 0xFFFF [0x74, 0x10])).mem.readBytes ((real16 0xFFFF (put [] 0xFFFF [0x74, 0x10])).cs.base + (real16 0xFFFF (put [] 0xFFFF [0x74, 0x10])).eip)
        (instrLength (real16 0xFFFF (put [] 0xFFFF [0x74, 0x10])).cs.size (Instr.jERel8 .s16 0x10)) = encode (real16 0xFFFF (put [] 0xFFFF [0x74, 0x10])).cs.size (Instr.jERel8 .s16 0x10) ∧
      (real16 0xFFFF (put [] 0xFFFF [0x74, 0x10])).eip.toNat ≤ (real16 0xFFFF (put [] 0xFFFF [0x74, 0x10])).cs.limit.toNat ∧
      (real16 0xFFFF (put [] 0xFFFF [0x74, 0x10])).cs.limit.toNat + 1 < (real16 0xFFFF (put [] 0xFFFF [0x74, 0x10])).eip.toNat + instrLength (real16 0xFFFF (put [] 0xFFFF [0x74, 0x10])).cs.size (Instr.jERel8 .s16 0x10) :=
  by decide

/-- The target is the last offset of the segment in the first. -/
theorem witness_TakenRelativeJumpReachesItsTarget :
    (relativeJump (withZf (real16 0xFFF0 [])) (.jERel8 .s16 0x0D) = some ⟨.s16, 0x0D, true, true⟩ ∧
      relativeTarget (withZf (real16 0xFFF0 [])) (.jERel8 .s16 0x0D) ⟨.s16, 0x0D, true, true⟩ ≤
        (withZf (real16 0xFFF0 [])).cs.limit.toNat) ∧
      (relativeJump (prot32 0 []) (.jmpRel32 0x80000000) = some ⟨.s32, -2147483648, false, true⟩ ∧
      relativeTarget (prot32 0 []) (.jmpRel32 0x80000000) ⟨.s32, -2147483648, false, true⟩ ≤
        (prot32 0 []).cs.limit.toNat) :=
  by decide

theorem witness_UntakenConditionalJumpFallsThrough :
    relativeJump (real16 0x0100 []) (.jcxzRel8 .s16 0x80) = some ⟨.s16, -128, true, true⟩ ∧
      relativeJump { real16 0x0100 [] with regs := { State.reset.regs with ecx := 1 } } (.jcxzRel8 .s16 0x80) =
        some ⟨.s16, -128, true, false⟩ :=
  by decide

/-- JE not taken that ends at offset FFFFFFFF, and the state whose mark differs after it. -/
theorem witness_SequentialExecutionPastTheEndIsRefused :
    (lastJe.pagingEnabled = false ∧ relativeJump lastJe (.jERel8 .s32 0x10) = some ⟨.s32, 0x10, true, false⟩ ∧
      4294967296 ≤ followingOffset lastJe (.jERel8 .s32 0x10)) ∧
      ∃ t, exec (.jERel8 .s32 0x10) lastJe = .next t ∧ t.pastEnd ≠ lastJe.pastEnd :=
  ⟨by decide, _, rfl, by decide⟩

/-- The target is the first offset beyond the limit. -/
theorem witness_RelativeJumpBeyondTheLimitStops :
    (relativeJump (withZf (prot16 0xFFF0 [])) (.jERel8 .s32 0x0D) = some ⟨.s32, 0x0D, true, true⟩ ∧
      (withZf (prot16 0xFFF0 [])).cs.limit.toNat <
        relativeTarget (withZf (prot16 0xFFF0 [])) (.jERel8 .s32 0x0D) ⟨.s32, 0x0D, true, true⟩ ∧
      (withZf (prot16 0xFFF0 [])).mode = .protectedMode) ∧
      (relativeJump (real16 0xFFF0 []) (.jmpRel8 .s32 0x0D) = some ⟨.s32, 0x0D, false, true⟩ ∧
      (real16 0xFFF0 []).cs.limit.toNat <
        relativeTarget (real16 0xFFF0 []) (.jmpRel8 .s32 0x0D) ⟨.s32, 0x0D, false, true⟩ ∧
      (real16 0xFFF0 []).mode ≠ .protectedMode) :=
  by decide

theorem witness_ConditionalJumpStaysInItsSegmentAndReach :
    ∃ t, relativeJump (withZf (prot32 0x1000 [])) (.jERel8 .s32 0x80) = some ⟨.s32, -128, true, true⟩ ∧
      exec (.jERel8 .s32 0x80) (withZf (prot32 0x1000 [])) = .next t :=
  ⟨_, by decide, rfl⟩

/-- A target at the limit, and an operand whose last byte is at the limit of its segment. -/
theorem witness_NearIndirectJumpReachesItsOperand :
    (nearOperand { real16 0x0100 [] with regs := { State.reset.regs with ebx := 0xABCDFFFF } } (.jmpRm16 (.reg .ebx)) =
        some 0xFFFF ∧ 0xFFFF ≤ (real16 0x0100 []).cs.limit.toNat) ∧
      (nearOperand (prot32 0x1000 (put [] 0xFFFFFFFC [0x78, 0x56, 0x34, 0x12]))
        (.jmpRm32 (.mem ⟨none, .direct32 0xFFFFFFFC⟩)) = some 0x12345678 ∧
      0x12345678 ≤ (prot32 0x1000 (put [] 0xFFFFFFFC [0x78, 0x56, 0x34, 0x12])).cs.limit.toNat) :=
  by decide

theorem witness_NearIndirectJumpBeyondTheLimitStops :
    (nearOperand (eaxAt64K (prot16 0x0100 [])) (.jmpRm32 (.reg .eax)) =
        some 0x10000 ∧ (eaxAt64K (prot16 0x0100 [])).cs.limit.toNat < 0x10000 ∧
      (eaxAt64K (prot16 0x0100 [])).mode = .protectedMode) ∧
      (nearOperand (eaxAt64K (v86 0x0100 [])) (.jmpRm32 (.reg .eax)) =
        some 0x10000 ∧ (eaxAt64K (v86 0x0100 [])).cs.limit.toNat < 0x10000 ∧
      (eaxAt64K (v86 0x0100 [])).mode ≠ .protectedMode) :=
  by decide

theorem witness_NearJumpWritesOnlyEip :
    ∃ t, isNearJmp (.jmpRel8 .s32 0xFE) = true ∧ exec (.jmpRel8 .s32 0xFE) (prot32 0x1000 []) = .next t :=
  ⟨_, by decide, rfl⟩

/-- The last byte of the operand is the first beyond the limit. -/
theorem witness_OperandBeyondItsSegmentFaults :
    (memoryOperand (.jmpRm16 (.mem ⟨none, .direct16 0xFFFF⟩)) = some (⟨none, .direct16 0xFFFF⟩, 2) ∧
      (real16 0x0100 []).mode ≠ .protectedMode ∧ 0xFFFF < lastOffset (real16 0x0100 []) ⟨none, .direct16 0xFFFF⟩ 2) ∧
      (memoryOperand (.jmpM1632 ⟨some .ss, .direct32 0x3FFB⟩) = some (⟨some .ss, .direct32 0x3FFB⟩, 6) ∧
      ssStart.mode = .protectedMode ∧ usableSegment (operandSegment ssStart ⟨some .ss, .direct32 0x3FFB⟩) = true ∧
      (operandSegment ssStart ⟨some .ss, .direct32 0x3FFB⟩).limit.toNat <
        lastOffset ssStart ⟨some .ss, .direct32 0x3FFB⟩ 6) :=
  by decide

/-- A null selector, a segment that is not present, an execute-only code segment and an expand-down one; then the least
selector that is not null with each type that can be read, the accessed bit clear and set. -/
theorem witness_IllegalOperandSegmentIsRefused :
    memoryOperand (.jmpM1616 ⟨none, .direct16 0⟩) = some (⟨none, .direct16 0⟩, 4) ∧
      (∀ g ∈ [{ dataSegment 0xFFFF with selector := 0x0003 }, { dataSegment 0xFFFF with ar := 0x7F },
          { dataSegment 0xFFFF with ar := 0x99 }, { dataSegment 0xFFFF with ar := 0x97 }],
        (throughDs g).mode = .protectedMode ∧
          (notNull (operandSegment (throughDs g) ⟨none, .direct16 0⟩).selector = false ∨
            (operandSegment (throughDs g) ⟨none, .direct16 0⟩).ar.toNat < 128 ∨
            (operandSegment (throughDs g) ⟨none, .direct16 0⟩).ar.toNat / 2 % 16 ∉ [8, 9, 13, 15])) ∧
      ∀ ar ∈ [0x90#8, 0x91#8, 0x92#8, 0x93#8, 0x9A#8, 0x9B#8, 0x9E#8, 0xFF#8],
        (throughDs { dataSegment 0xFFFF with selector := 0x0004, ar := ar }).mode = .protectedMode ∧
          notNull (operandSegment (throughDs { dataSegment 0xFFFF with selector := 0x0004, ar := ar })
            ⟨none, .direct16 0⟩).selector = true ∧ 128 ≤ ar.toNat ∧ ar.toNat / 2 % 16 ∈ [8, 9, 13, 15] :=
  by decide

theorem witness_RealFarJumpLoadsCsAndEip :
    (farOperand (real16 0x0100 []) (.jmpPtr1632 0x0000FFFF 0xFFFF) = some ⟨.s32, 0xFFFF, 0xFFFF⟩ ∧
      (real16 0x0100 []).mode ≠ .protectedMode) ∧
      (farOperand (v86 0x0100 (put [] 0xFFFC [0x34, 0x12, 0x00, 0x20])) (.jmpM1616 ⟨none, .direct16 0xFFFC⟩) =
        some ⟨.s16, 0x2000, 0x1234⟩ ∧ (v86 0x0100 (put [] 0xFFFC [0x34, 0x12, 0x00, 0x20])).mode ≠ .protectedMode) :=
  by decide

theorem witness_RealFarJumpAbove64KIsRefused :
    farOperand (real16 0x0100 []) (.jmpPtr1632 0x00010000 0x2000) = some ⟨.s32, 0x2000, 0x10000⟩ ∧
      (real16 0x0100 []).mode ≠ .protectedMode :=
  by decide

theorem witness_FarJumpPathFollowsPeAndVm :
    (farOperand (real16 0x0100 []) (.jmpPtr1616 0x1234 0x2000) = some ⟨.s16, 0x2000, 0x1234⟩ ∧
      (real16 0x0100 []).pe = false) ∧
      (farOperand (v86 0x0100 []) (.jmpPtr1616 0x1234 0x2000) = some ⟨.s16, 0x2000, 0x1234⟩ ∧
      (v86 0x0100 []).pe = true ∧ (v86 0x0100 []).vm = true) ∧
      (farOperand (prot32 0x1000 []) farTo8 = some ⟨.s32, 0x0008, 0x1000⟩ ∧
      (prot32 0x1000 []).pe = true ∧ (prot32 0x1000 []).vm = false) :=
  by decide

theorem witness_RealFarJumpConsultsNoDescriptor :
    isFarJmp (.jmpPtr1616 0x1234 0x2000) = true ∧ (v86 0x0100 []).mode ≠ .protectedMode :=
  by decide

/-- The last null selector, the first local selector with an empty local table, the first index beyond the global table, and
the lowest and highest type of the last clause. -/
theorem witness_ProtectedFarJumpChecksItsSelector :
    (farOperand (prot32 0x1000 []) (.jmpPtr1632 0 0x0003) = some ⟨.s32, 0x0003, 0⟩ ∧
      (prot32 0x1000 []).mode = .protectedMode ∧ (prot32 0x1000 []).pagingEnabled = false ∧ notNull 0x0003 = false) ∧
      (notNull 0x0004 = true ∧ entryInTable (prot32 0x1000 []) 0x0004 = false ∧
      notNull 0x0070 = true ∧ entryInTable (prot32 0x1000 []) 0x0070 = false) ∧
      (∀ ar ∈ [0x80#8, 0x97#8], notNull 0x0008 = true ∧ entryInTable (withEntry ar) 0x0008 = true ∧
        entryType (withEntry ar) 0x0008 < 24 ∧ entryType (withEntry ar) 0x0008 ∉ [1, 3, 4, 5, 9, 11, 12]) :=
  by decide

theorem witness_FarJumpToNonConformingCode :
    (∀ ar ∈ [0x98#8, 0xFB#8, 0x1A#8], farOperand (withEntry ar) farTo8 = some ⟨.s32, 0x0008, 0x1000⟩ ∧
      (withEntry ar).mode = .protectedMode ∧ (withEntry ar).pagingEnabled = false ∧ notNull 0x0008 = true ∧
      entryInTable (withEntry ar) 0x0008 = true ∧ 24 ≤ entryType (withEntry ar) 0x0008 ∧ entryType (withEntry ar) 0x0008 < 28) :=
  by decide

theorem witness_FarJumpToConformingCode :
    (∀ ar ∈ [0x9C#8, 0xFF#8, 0x1E#8], farOperand (withEntry ar) farTo8 = some ⟨.s32, 0x0008, 0x1000⟩ ∧
      (withEntry ar).mode = .protectedMode ∧ (withEntry ar).pagingEnabled = false ∧ notNull 0x0008 = true ∧
      entryInTable (withEntry ar) 0x0008 = true ∧ 28 ≤ entryType (withEntry ar) 0x0008) :=
  by decide

theorem witness_FarJumpThroughCallGate :
    (∀ ar ∈ [0x84#8, 0x8C#8, 0xEC#8], farOperand (withEntry ar) farTo8 = some ⟨.s32, 0x0008, 0x1000⟩ ∧
      (withEntry ar).mode = .protectedMode ∧ (withEntry ar).pagingEnabled = false ∧ notNull 0x0008 = true ∧
      entryInTable (withEntry ar) 0x0008 = true ∧ entryType (withEntry ar) 0x0008 ∈ [4, 12]) :=
  by decide

theorem witness_FarJumpThroughTaskGate :
    (∀ ar ∈ [0x85#8, 0xE5#8], farOperand (withEntry ar) farTo8 = some ⟨.s32, 0x0008, 0x1000⟩ ∧
      (withEntry ar).mode = .protectedMode ∧ (withEntry ar).pagingEnabled = false ∧ notNull 0x0008 = true ∧
      entryInTable (withEntry ar) 0x0008 = true ∧ entryType (withEntry ar) 0x0008 = 5) :=
  by decide

theorem witness_FarJumpToTaskStateSegment :
    (∀ ar ∈ [0x81#8, 0x83#8, 0x89#8, 0x8B#8], farOperand (withEntry ar) farTo8 = some ⟨.s32, 0x0008, 0x1000⟩ ∧
      (withEntry ar).mode = .protectedMode ∧ (withEntry ar).pagingEnabled = false ∧ notNull 0x0008 = true ∧
      entryInTable (withEntry ar) 0x0008 = true ∧ entryType (withEntry ar) 0x0008 ∈ [1, 3, 9, 11]) :=
  by decide

theorem witness_FarJumpWritesNoFlag :
    ∃ t, isFarJmp farTo8 = true ∧ exec farTo8 (withEntry 0x9A) = .next t ∧
      farOperand (withEntry 0x9A) farTo8 = some ⟨.s32, 0x0008, 0x1000⟩ ∧ (withEntry 0x9A).mode = .protectedMode :=
  ⟨_, by decide, rfl, by decide⟩

theorem witness_ProtectedFarJumpLoadsTheDescriptor :
    ∃ t, farOperand (withEntry 0x9E) farTo8 = some ⟨.s32, 0x0008, 0x1000⟩ ∧ (withEntry 0x9E).mode = .protectedMode ∧
      exec farTo8 (withEntry 0x9E) = .next t :=
  ⟨_, by decide, by decide, rfl⟩

/-- A far jump in memory, in Protected Mode, to the segment that selector 0008 names. -/
def farStart : State :=
  prot32 0x1000 (put (entry [0xFF, 0xFF, 0x00, 0x00, 0x00, 0x9A, 0xCF, 0x00]) 0x1000 [0xEA, 0x00, 0x10, 0x00, 0x00, 0x08, 0x00])

/-- A far jump in memory, in Real Address Mode. -/
def farRealStart : State := real16 0x0002 (put [] 0x0002 [0xEA, 0x34, 0x12, 0x00, 0x20])

theorem witness_StepWritesOnlyEipAndCs :
    ∃ t, step farStart = .next t :=
  ⟨_, rfl⟩

theorem witness_StepWritesNoFlag :
    ∃ t, step farRealStart = .next t :=
  ⟨_, rfl⟩

theorem witness_OnlyFarJumpsWriteCs :
    ∃ t, step farRealStart = .next t ∧ t.cs ≠ farRealStart.cs :=
  ⟨_, rfl, by decide⟩

theorem witness_JumpKeepsThePrivilegeLevel :
    ∃ t, exec farTo8 farStart = .next t ∧ isFarJmp farTo8 = true ∧ farStart.mode = .protectedMode :=
  ⟨_, rfl, by decide⟩

theorem witness_StepKeepsTheCodeSegmentAtItsPrivilege :
    ∃ t, farStart.mode = .protectedMode ∧ farStart.csFits = true ∧ step farStart = .next t :=
  ⟨_, by decide, by decide, rfl⟩

theorem witness_StepKeepsTheRealModeCodeSegment :
    ∃ t, farRealStart.mode ≠ .protectedMode ∧ farRealStart.cs.realShape = true ∧ step farRealStart = .next t :=
  ⟨_, by decide, by decide, rfl⟩

theorem witness_StepKeepsTheStateSound :
    (∃ t, farStart.sound = true ∧ step farStart = .next t) ∧
      ∃ t, farRealStart.sound = true ∧ step farRealStart = .next t :=
  ⟨⟨_, by decide, rfl⟩, ⟨_, by decide, rfl⟩⟩

theorem witness_ProtectedJumpsLandWithinTheLimit :
    ∃ t, farStart.mode = .protectedMode ∧ step farStart = .next t :=
  ⟨_, by decide, rfl⟩

/-- Every exception that the rules can raise is raised. -/
theorem witness_ExceptionsBelongToTheirModes :
    faultOf (step { farStart with cpl := 1 }) = some (.gp 0x0008) ∧
      faultOf (step { farStart with mem := put farStart.mem 0x0001000D [0x1A] }) = some (.np 0x0008) ∧
      faultOf (step { prot32 0x1000 (put [] 0x1000 [0x36, 0xFF, 0x25, 0xFE, 0x3F, 0x00, 0x00]) with
        ss := dataSegment 0x3FFF }) = some (.ss 0) ∧
      faultOf (step (v86 0x0100 (put [] 0x0100 [0xFF, 0x2E, 0xFD, 0xFF]))) = some .interrupt13 ∧
      faultOf (step (real16 0x0100 (put [] 0x0100 [0xFF, 0xEF]))) = some .invalidOpcode :=
  by decide

theorem witness_CountAndUnconditionalJumpsReadNoFlag :
    isNearJmp (.jmpRel16 0x0EFD) = true ∧ isFarJmp farTo8 = true ∧
      ∃ os rel, Instr.jcxzRel8 .s16 0x05 = .jcxzRel8 os rel ∨ Instr.jcxzRel8 .s16 0x05 = .jecxzRel8 os rel :=
  ⟨by decide, by decide, _, _, .inl rfl⟩

theorem witness_RealModeIgnoresVm :
    (real16 0x0100 []).pe = false :=
  by decide

/-- JLE and JG on ZF = 1, SF = OF, in the near form (90_conflicts.md C1): the first jumps, the second does not. -/
theorem witness_OppositeConditionsExclude :
    Instr.jccNear16 (Cond.ofCode 14) 0x8000 = .jLeRel16 0x8000 ∧
      Instr.jccNear16 (Cond.ofCode (14 ^^^ 1)) 0x8000 = .jGRel16 0x8000 ∧
      relativeJump (withZf (real16 0x0100 [])) (.jLeRel16 0x8000) = some ⟨.s16, -32768, true, true⟩ ∧
      relativeJump (withZf (real16 0x0100 [])) (.jGRel16 0x8000) = some ⟨.s16, -32768, true, false⟩ :=
  by decide

end Sys2Proof.Tests
end

namespace Sys2Proof
open Machine

/-! SUPPORT. Decoding behind a stack of prefix bytes: what the stack adds up to decides, whatever its order. -/

/-! ### The prefix stack -/

/-- The prefixes after one more byte: `none` when the byte is no prefix or repeats one. -/
def Prefixes.addByte (p : Prefixes) (b : Byte) : Option Prefixes := (prefixKind b).bind p.add

/-- The prefixes after a stack of bytes: `none` when one of them is no prefix or repeats an earlier one. -/
def Prefixes.addBytes (p : Prefixes) (ps : List Byte) : Option Prefixes := ps.foldlM Prefixes.addByte p

@[simp] theorem Prefixes.addBytes_nil (p : Prefixes) : p.addBytes [] = some p := rfl

@[simp] theorem Prefixes.addBytes_cons (p : Prefixes) (b : Byte) (ps : List Byte) :
    p.addBytes (b :: ps) = (p.addByte b).bind (·.addBytes ps) := rfl

theorem prefixKind_isSome_iff (b : Byte) : (prefixKind b).isSome = true ↔ b ∈ prefixBytes := by revert b; decide

theorem takePrefixes_opcode (p : Prefixes) {op : Byte} (hop : prefixKind op = none) (r : List Byte) :
    takePrefixes p (op :: r) = .ok (p, op :: r) := by simp [takePrefixes, hop]

theorem takePrefixes_cons (p : Prefixes) {b : Byte} (hb : b ∈ prefixBytes) (r : List Byte) :
    takePrefixes p (b :: r) = (p.addByte b).elim (.error .notInSpec) (takePrefixes · r) := by
  obtain ⟨k, hk⟩ := Option.isSome_iff_exists.1 ((prefixKind_isSome_iff b).2 hb)
  cases h : p.add k <;> simp [takePrefixes, Prefixes.addByte, hk, h]

theorem takePrefixes_append (p : Prefixes) {ps : List Byte} (hps : ∀ b ∈ ps, b ∈ prefixBytes) (r : List Byte) :
    takePrefixes p (ps ++ r) = (p.addBytes ps).elim (.error .notInSpec) (takePrefixes · r) := by
  induction ps generalizing p with
  | nil => rfl
  | cons b ps ih =>
    obtain ⟨hb, hps⟩ := List.forall_mem_cons.1 hps
    rw [List.cons_append, takePrefixes_cons p hb, Prefixes.addBytes_cons]
    cases p.addByte b with
    | none => rfl
    | some q => exact ih q hps

/-- Two prefixes may be added in either order. -/
theorem Prefixes.add_comm (p : Prefixes) (k l : PrefixKind) :
    (p.add k).bind (·.add l) = (p.add l).bind (·.add k) := by
  obtain ⟨o, a, s⟩ := p
  cases k <;> cases l <;> cases o <;> cases a <;> cases s <;> rfl

theorem Prefixes.addByte_comm (p : Prefixes) (b c : Byte) :
    (p.addByte b).bind (·.addByte c) = (p.addByte c).bind (·.addByte b) := by
  unfold Prefixes.addByte
  cases prefixKind b with
  | none => cases prefixKind c <;> simp
  | some k =>
    cases prefixKind c with
    | none => simp
    | some l => exact p.add_comm k l

/-- The byte of a prefix (30_encoding.md R104). -/
def PrefixKind.byte : PrefixKind → Byte
  | .opSize => 0x66
  | .addrSize => 0x67
  | .seg s => s.prefixByte

theorem prefixKind_eq_some {b : Byte} {k : PrefixKind} (h : prefixKind b = some k) : b = k.byte := by
  have all : ∀ b : Byte, (prefixKind b).all (fun k => b == k.byte) = true := by decide
  simpa [h] using all b

@[simp] theorem overrideBytes_contains_prefixByte (s : SegName) : overrideBytes.contains s.prefixByte = true := by
  cases s <;> rfl

/-- A prefix byte that is added is counted once, and was not there before. -/
theorem Prefixes.addByte_counts {p q : Prefixes} {b : Byte} (h : p.addByte b = some q) :
    p.opSize.toNat + [b].count 0x66 = q.opSize.toNat ∧ p.addrSize.toNat + [b].count 0x67 = q.addrSize.toNat ∧
      p.seg.isSome.toNat + [b].countP (overrideBytes.contains ·) = q.seg.isSome.toNat := by
  obtain ⟨k, hk, hadd⟩ := Option.bind_eq_some_iff.1 h
  obtain rfl := prefixKind_eq_some hk
  cases k with
  | opSize =>
    obtain ⟨hnew, rfl⟩ : p.opSize = false ∧ { p with opSize := true } = q := by simpa [Prefixes.add] using hadd
    simp [PrefixKind.byte, overrideBytes, hnew]
  | addrSize =>
    obtain ⟨hnew, rfl⟩ : p.addrSize = false ∧ { p with addrSize := true } = q := by simpa [Prefixes.add] using hadd
    simp [PrefixKind.byte, overrideBytes, hnew]
  | seg s =>
    obtain ⟨hnew, rfl⟩ : p.seg = none ∧ { p with seg := some s } = q := by simpa [Prefixes.add] using hadd
    have hne : s.prefixByte ≠ 0x66#8 ∧ s.prefixByte ≠ 0x67#8 := by cases s <;> decide
    simp [PrefixKind.byte, hne, hnew, -List.contains_eq_mem]

/-- What a stack has added, counted: no prefix is there twice. -/
theorem Prefixes.addBytes_counts {p q : Prefixes} {ps : List Byte} (h : p.addBytes ps = some q) :
    p.opSize.toNat + ps.count 0x66 = q.opSize.toNat ∧ p.addrSize.toNat + ps.count 0x67 = q.addrSize.toNat ∧
      p.seg.isSome.toNat + ps.countP (overrideBytes.contains ·) = q.seg.isSome.toNat := by
  induction ps generalizing p with
  | nil => cases h; simp
  | cons b ps ih =>
    obtain ⟨p', hb, hps⟩ := Option.bind_eq_some_iff.1 h
    obtain ⟨o1, a1, s1⟩ := Prefixes.addByte_counts hb
    obtain ⟨o2, a2, s2⟩ := ih hps
    rw [← List.singleton_append, List.count_append, List.count_append, List.countP_append]
    omega

/-- The operand-size prefix, added before a stack that does not hold it, is the only difference. -/
theorem Prefixes.addBytes_opSize {ps : List Byte} (hps : ∀ b ∈ ps, b ≠ 0x66) (p : Prefixes) :
    ({ p with opSize := true } : Prefixes).addBytes ps = (p.addBytes ps).map fun q => { q with opSize := true } := by
  induction ps generalizing p with
  | nil => rfl
  | cons b ps ih =>
    obtain ⟨hb, hps⟩ := List.forall_mem_cons.1 hps
    have step : ({ p with opSize := true } : Prefixes).addByte b =
        (p.addByte b).map fun q => { q with opSize := true } := by
      cases hk : prefixKind b with
      | none => simp [Prefixes.addByte, hk]
      | some k =>
        cases k with
        | opSize => exact absurd (prefixKind_eq_some hk) hb
        | addrSize => cases ha : p.addrSize <;> simp [Prefixes.addByte, hk, Prefixes.add, ha]
        | seg s => cases hs : p.seg <;> simp [Prefixes.addByte, hk, Prefixes.add, hs]
    rw [Prefixes.addBytes_cons, Prefixes.addBytes_cons, step]
    cases p.addByte b with
    | none => rfl
    | some q => exact ih hps q

/-! ### Decoding from the opcode byte onwards -/

/-- What `decode` answers once the prefixes are read: the form of the opcode, as an instruction. -/
def decodeOpcode (cs : Size) (p : Prefixes) (op : Byte) (r : List Byte) : Except Reject (Instr × List Byte) :=
  (takeForm p (cs.prefixed p.opSize) (cs.prefixed p.addrSize) op r).map fun x => (x.1.instr, x.2)

/-- Decoding in terms of the prefixes that the bytes begin with. -/
theorem decode_of_takePrefixes {cs : Size} {bs : List Byte} {p : Prefixes} {op : Byte} {r : List Byte}
    (h : takePrefixes {} bs = .ok (p, op :: r)) : decode cs bs = decodeOpcode cs p op r := by
  simp only [decode, h, bind_ok, take8_cons, decodeOpcode]
  cases takeForm p (cs.prefixed p.opSize) (cs.prefixed p.addrSize) op r <;> rfl

/-- Decoding an opcode behind a stack of prefix bytes. -/
theorem decode_stack (cs : Size) {ps : List Byte} (hps : ∀ b ∈ ps, b ∈ prefixBytes) {op : Byte}
    (hop : prefixKind op = none) (r : List Byte) :
    decode cs (ps ++ op :: r) =
      (Prefixes.addBytes {} ps).elim (.error .notInSpec) (decodeOpcode cs · op r) := by
  have h := takePrefixes_append {} hps (op :: r)
  cases hp : Prefixes.addBytes {} ps with
  | none => simp [decode, h, hp]
  | some p => exact decode_of_takePrefixes (by rw [h, hp]; exact takePrefixes_opcode p hop r)

/-- Decoding an opcode without a prefix. -/
theorem decode_bare (cs : Size) {op : Byte} (hop : prefixKind op = none) (r : List Byte) :
    decode cs (op :: r) = decodeOpcode cs {} op r :=
  decode_of_takePrefixes (takePrefixes_opcode {} hop r)

/-- A stack that cannot be added is refused, whatever follows. -/
theorem decode_stack_refused (cs : Size) {ps : List Byte} (hps : ∀ b ∈ ps, b ∈ prefixBytes)
    (h : Prefixes.addBytes {} ps = none) (r : List Byte) : decode cs (ps ++ r) = .error .notInSpec := by
  simp [decode, takePrefixes_append {} hps, h]

/-- Settles O10: the two neighbours are added in either order, and the rest of the bytes sees only what was added. -/
theorem prefixesComeInAnyOrder : Obligations.PrefixesComeInAnyOrder := by
  intro cs ps rest b c hps hb hc
  have swapped : Prefixes.addBytes {} (ps ++ [b, c]) = Prefixes.addBytes {} (ps ++ [c, b]) := by
    simp only [Prefixes.addBytes, List.foldlM_append]
    cases ps.foldlM Prefixes.addByte {} with
    | none => rfl
    | some p => simpa using p.addByte_comm b c
  have same : takePrefixes {} (ps ++ b :: c :: rest) = takePrefixes {} (ps ++ c :: b :: rest) := by
    have hbc : ∀ x ∈ ps ++ [b, c], x ∈ prefixBytes := by simp +contextual [or_imp, hps, hb, hc]
    have hcb : ∀ x ∈ ps ++ [c, b], x ∈ prefixBytes := by simp +contextual [or_imp, hps, hb, hc]
    have e1 := takePrefixes_append {} hbc rest
    have e2 := takePrefixes_append {} hcb rest
    rw [swapped] at e1
    simpa using e1.trans e2.symm
  rw [decode, same, decode]

end Sys2Proof

namespace Sys2Proof
open Machine

/-! SUPPORT. One equation for each opcode of the decoder, and for its address readers. -/

/-! ### The forms, opcode by opcode -/

theorem isPlainOpcode_facts {op : Byte} (h : isPlainOpcode op = true) :
    prefixKind op = none ∧ op ≠ 0xFF#8 ∧ op ≠ 0xE3#8 := by
  revert op; decide

/-- A plain opcode sees of the prefixes only whether one has nothing to act on, and the operand size. -/
theorem takeForm_plain {op : Byte} (h : isPlainOpcode op = true) (p : Prefixes) (os as : Size) (r : List Byte) :
    takeForm p os as op r = if p.onlyOpSize then takeForm {} os os op r else .error .notInSpec := by
  obtain ⟨-, hFF, hE3⟩ := isPlainOpcode_facts h
  have hbare : ({} : Prefixes).onlyOpSize = true := rfl
  cases hp : p.onlyOpSize <;> simp [takeForm, hFF, hE3, hp, hbare]

theorem takeForm_groupFF (p : Prefixes) (os as : Size) (r : List Byte) :
    takeForm p os as 0xFF r = takeGroupFF p os as r := rfl

theorem takeForm_countJump (p : Prefixes) (os as : Size) (rel : Byte) (r : List Byte) :
    takeForm p os as 0xE3 (rel :: r) =
      if p.seg.isNone then .ok (.jcountShort as os rel, r) else .error .notInSpec := rfl

/-- A byte of an upper nibble and a condition number has these parts. -/
theorem nibble_hi (n cc : BitVec 4) : (n ++ cc : Byte).extractLsb' 4 4 = n := by revert n cc; decide

theorem nibble_lo (n cc : BitVec 4) : (n ++ cc : Byte).extractLsb' 0 4 = cc := by revert n cc; decide

theorem isPlainOpcode_jccShort (cc : BitVec 4) : isPlainOpcode (7#4 ++ cc) = true := by revert cc; decide

theorem takeForm_jccShort (os as : Size) (cc : BitVec 4) (rel : Byte) (r : List Byte) :
    takeForm {} os as (7#4 ++ cc) (rel :: r) = .ok (.jccShort (Cond.ofCode cc) os rel, r) := by
  obtain ⟨-, hFF, hE3⟩ := isPlainOpcode_facts (isPlainOpcode_jccShort cc)
  have hbare : ({} : Prefixes).onlyOpSize = true := rfl
  simp [takeForm, hFF, hE3, hbare, nibble_hi, nibble_lo]

theorem takeForm_jccNear16 (as : Size) (cc : BitVec 4) {d : Half} {r r' : List Byte} (h : take16 r = .ok (d, r')) :
    takeForm {} .s16 as 0x0F ((8#4 ++ cc) :: r) = .ok (.jccNear16 (Cond.ofCode cc) d, r') := by
  change takeGroup0F .s16 _ = _
  simp [takeGroup0F, nibble_hi, nibble_lo, h]

theorem takeForm_jccNear32 (as : Size) (cc : BitVec 4) {d : Word} {r r' : List Byte} (h : take32 r = .ok (d, r')) :
    takeForm {} .s32 as 0x0F ((8#4 ++ cc) :: r) = .ok (.jccNear32 (Cond.ofCode cc) d, r') := by
  change takeGroup0F .s32 _ = _
  simp [takeGroup0F, nibble_hi, nibble_lo, h]

theorem takeForm_jmpShort (os as : Size) (rel : Byte) (r : List Byte) :
    takeForm {} os as 0xEB (rel :: r) = .ok (.jmpShort os rel, r) := rfl

theorem takeForm_jmpNear16 (as : Size) {d : Half} {r r' : List Byte} (h : take16 r = .ok (d, r')) :
    takeForm {} .s16 as 0xE9 r = .ok (.jmpNear16 d, r') := by
  change takeNear .s16 r = _
  simp [takeNear, h]

theorem takeForm_jmpNear32 (as : Size) {d : Word} {r r' : List Byte} (h : take32 r = .ok (d, r')) :
    takeForm {} .s32 as 0xE9 r = .ok (.jmpNear32 d, r') := by
  change takeNear .s32 r = _
  simp [takeNear, h]

theorem takeForm_jmpDirectFar16 (as : Size) {off sel : Half} {r r' r'' : List Byte} (h : take16 r = .ok (off, r'))
    (h' : take16 r' = .ok (sel, r'')) : takeForm {} .s16 as 0xEA r = .ok (.jmpDirectFar16 off sel, r'') := by
  change takePointer .s16 r = _
  simp [takePointer, h, h']

theorem takeForm_jmpDirectFar32 (as : Size) {off : Word} {sel : Half} {r r' r'' : List Byte}
    (h : take32 r = .ok (off, r')) (h' : take16 r' = .ok (sel, r'')) :
    takeForm {} .s32 as 0xEA r = .ok (.jmpDirectFar32 off sel, r'') := by
  change takePointer .s32 r = _
  simp [takePointer, h, h']

/-- `FF /4` with a register. -/
theorem takeGroupFF_register {p : Prefixes} (hp : p.onlyOpSize = true) (os as : Size) (rm : BitVec 3) (r : List Byte) :
    takeGroupFF p os as (fieldByte 3 4 rm :: r) = .ok (.jmpIndirect os (.reg (Reg.ofCode rm)), r) := by
  simp only [takeGroupFF, take8_cons, bind_ok, fieldByte_hi, fieldByte_mid, fieldByte_lo, hp]
  rfl

/-- The register form of `FF` behind a prefix with nothing to act on. -/
theorem takeGroupFF_register_refused {p : Prefixes} (hp : p.onlyOpSize = false) (os as : Size) (digit rm : BitVec 3)
    (r : List Byte) : takeGroupFF p os as (fieldByte 3 digit rm :: r) = .error .notInSpec := by
  simp only [takeGroupFF, take8_cons, bind_ok, fieldByte_hi, fieldByte_mid, hp]
  split <;> simp

/-- `FF /4` with a memory operand. -/
theorem takeGroupFF_near {mod : BitVec 2} (hmod : mod ≠ 3) {rm : BitVec 3} {as : Size} {r r' : List Byte} {a : Addr}
    (h : takeAddr as mod rm r = .ok (a, r')) (p : Prefixes) (os : Size) :
    takeGroupFF p os as (fieldByte mod 4 rm :: r) = .ok (.jmpIndirect os (.mem ⟨p.seg, a⟩), r') := by
  simp only [takeGroupFF, take8_cons, bind_ok, fieldByte_hi, fieldByte_mid, fieldByte_lo, if_neg hmod, h]
  rfl

/-- `FF /5` with a memory operand. -/
theorem takeGroupFF_far {mod : BitVec 2} (hmod : mod ≠ 3) {rm : BitVec 3} {as : Size} {r r' : List Byte} {a : Addr}
    (h : takeAddr as mod rm r = .ok (a, r')) (p : Prefixes) (os : Size) :
    takeGroupFF p os as (fieldByte mod 5 rm :: r) = .ok (.jmpIndirectFar os ⟨p.seg, a⟩, r') := by
  simp only [takeGroupFF, take8_cons, bind_ok, fieldByte_hi, fieldByte_mid, fieldByte_lo, if_neg hmod, h]
  rfl

/-! ### Addresses -/

theorem Base16.code_eq_six (b : Base16) : b.code = 6#3 ↔ b = .bp := by cases b <;> decide
theorem Reg.code_eq_four (r : Reg) : r.code = 4#3 ↔ r = .esp := by cases r <;> decide
theorem Reg.code_eq_five (r : Reg) : r.code = 5#3 ↔ r = .ebp := by cases r <;> decide

/-- A well-formed address is read back from its `mod`, its `rm` and the bytes after the ModR/M byte. -/
theorem Addr.encode_readable (a : Addr) (ha : a.wellFormed = true) :
    ∃ mod rm tail, mod ≠ 3 ∧ (∀ digit, a.encode digit = fieldByte mod digit rm :: tail) ∧
      ∀ r, takeAddr a.size mod rm (tail ++ r) = .ok (a, r) := by
  cases a with
  | direct16 d =>
    exact ⟨0, 6, bytes16 d, by decide, fun _ => rfl, fun r => by simp [takeAddr, Addr.size, takeAddr16]⟩
  | base16 b d =>
    refine ⟨_, _, _, ?_, fun _ => rfl, fun r => ?_⟩
    · cases d <;> simp [Disp16.encode]
    · cases d with
      | none =>
        have hb : b ≠ .bp := by simpa [Addr.wellFormed, Addr.base16Ok] using ha
        simp [takeAddr, Addr.size, takeAddr16, Disp16.encode, Base16.code_eq_six, hb]
      | _ => simp [takeAddr, Addr.size, takeAddr16, Disp16.encode]
  | direct32 d =>
    exact ⟨0, 5, bytes32 d, by decide, fun _ => rfl, fun r => by simp [takeAddr, Addr.size, takeAddr32]⟩
  | base32 b d =>
    obtain ⟨hsp, hbp⟩ : b ≠ .esp ∧ (b = .ebp → d ≠ .none) := by
      simpa [Addr.wellFormed, Addr.base32Ok, Decidable.imp_iff_not_or] using ha
    refine ⟨_, _, _, ?_, fun _ => rfl, fun r => ?_⟩
    · cases d <;> simp [Disp32.encode]
    · cases d with
      | none =>
        have hb : b ≠ .ebp := fun h => hbp h rfl
        simp [takeAddr, Addr.size, takeAddr32, Disp32.encode, Reg.code_eq_four, Reg.code_eq_five, hsp, hb]
      | _ => simp [takeAddr, Addr.size, takeAddr32, Disp32.encode, Reg.code_eq_four, hsp]
  | sib scale index base d =>
    obtain ⟨hidx, hbp⟩ : Addr.indexOk index = true ∧ (base = .ebp → d ≠ .none) := by
      simpa [Addr.wellFormed, Addr.sibBaseOk, Decidable.imp_iff_not_or] using ha
    have hidx := indexOfCode_indexCode index hidx
    refine ⟨_, _, _, ?_, fun _ => rfl, fun r => ?_⟩
    · cases d <;> simp [Disp32.encode]
    · cases d with
      | none =>
        have hb : base ≠ .ebp := fun h => hbp h rfl
        simp [takeAddr, Addr.size, takeAddr32, takeSib, Disp32.encode, Reg.code_eq_five, hb, hidx]
      | _ => simp [takeAddr, Addr.size, takeAddr32, takeSib, Disp32.encode, hidx]
  | sibDirect scale index d =>
    have hidx := indexOfCode_indexCode index ha
    exact ⟨0, 4, _, by decide, fun _ => rfl, fun r => by simp [takeAddr, Addr.size, takeAddr32, takeSib, hidx]⟩

end Sys2Proof

namespace Sys2Proof
open Machine

/-! SUPPORT. Decoding undoes encoding, and what is decoded is well-formed and takes its length: both form by form. -/

/-! ### Decoding what was encoded -/

@[simp] theorem Size.prefixed_of_ne (cs attr : Size) : cs.prefixed (decide (attr ≠ cs)) = attr := by
  cases cs <;> cases attr <;> rfl

theorem takePrefixes_opSizePrefix (cs os : Size) (a : Bool) (o : Option SegName) (r : List Byte) :
    takePrefixes ⟨false, a, o⟩ (opSizePrefix cs os ++ r) = takePrefixes ⟨decide (os ≠ cs), a, o⟩ r := by
  by_cases h : os = cs
  · simp [opSizePrefix, h]
  · simp only [opSizePrefix, if_neg h, decide_eq_true h]; rfl

theorem takePrefixes_addrSizePrefix (cs as : Size) (b : Bool) (o : Option SegName) (r : List Byte) :
    takePrefixes ⟨b, false, o⟩ (addrSizePrefix cs as ++ r) = takePrefixes ⟨b, decide (as ≠ cs), o⟩ r := by
  by_cases h : as = cs
  · simp [addrSizePrefix, h]
  · simp only [addrSizePrefix, if_neg h, decide_eq_true h]; rfl

theorem takePrefixes_segPrefix (o : Option SegName) (a b : Bool) (r : List Byte) :
    takePrefixes ⟨a, b, none⟩ (segPrefix o ++ r) = takePrefixes ⟨a, b, o⟩ r := by
  cases o with
  | none => rfl
  | some s => simp [segPrefix, takePrefixes, Prefixes.add]

/-- The decoder reads the prefixes of an encoding, and with them the sizes that they stand for. -/
theorem decode_encodedPrefixes (cs os as : Size) (o : Option SegName) {op : Byte} (hop : prefixKind op = none)
    (r : List Byte) :
    decode cs (opSizePrefix cs os ++ (addrSizePrefix cs as ++ (segPrefix o ++ op :: r))) =
      (takeForm ⟨decide (os ≠ cs), decide (as ≠ cs), o⟩ os as op r).map fun x => (x.1.instr, x.2) := by
  have h : takePrefixes {} (opSizePrefix cs os ++ (addrSizePrefix cs as ++ (segPrefix o ++ op :: r))) =
      .ok (⟨decide (os ≠ cs), decide (as ≠ cs), o⟩, op :: r) := by
    rw [takePrefixes_opSizePrefix, takePrefixes_addrSizePrefix, takePrefixes_segPrefix, takePrefixes_opcode _ hop]
  rw [decode_of_takePrefixes h, decodeOpcode, Size.prefixed_of_ne, Size.prefixed_of_ne]

/-- A plain opcode, with the operand-size prefix that its form needs. -/
theorem decode_plain (cs os : Size) {op : Byte} (hop : isPlainOpcode op = true) {r r' : List Byte} {f : Form}
    (h : takeForm {} os os op r = .ok (f, r')) : decode cs (opSizePrefix cs os ++ op :: r) = .ok (f.instr, r') := by
  have e := decode_encodedPrefixes cs os cs none (isPlainOpcode_facts hop).1 r
  rw [takeForm_plain hop] at e
  simpa [addrSizePrefix, segPrefix, Prefixes.onlyOpSize, h, Except.map] using e

/-- The opcode FF, with the prefixes that its memory operand needs. -/
theorem decode_groupFF (cs os : Size) (m : MemOp) {r r' : List Byte} {f : Form}
    (h : takeGroupFF ⟨decide (os ≠ cs), decide (m.addr.size ≠ cs), m.override⟩ os m.addr.size r = .ok (f, r')) :
    decode cs (memPrefixes cs os m ++ 0xFF :: r) = .ok (f.instr, r') := by
  have e := decode_encodedPrefixes cs os m.addr.size m.override (op := 0xFF) rfl r
  rw [takeForm_groupFF, h] at e
  simpa [memPrefixes, Except.map] using e

/-- The form has an encoding: only a ModR/M operand can fail to. -/
def Form.wellFormed : Form → Bool
  | .jmpIndirect _ op => op.wellFormed
  | .jmpIndirectFar _ m => m.wellFormed
  | _ => true

@[simp] theorem Form.wellFormed_instr (f : Form) : f.instr.wellFormed = f.wellFormed := by
  cases f with
  | jccShort c os rel => cases c <;> rfl
  | jccNear16 c rel => cases c <;> rfl
  | jccNear32 c rel => cases c <;> rfl
  | jcountShort as os rel => cases as <;> rfl
  | jmpIndirect os op => cases os <;> rfl
  | jmpIndirectFar os m => cases os <;> rfl
  | _ => rfl

/-- Decoding undoes encoding, form by form. -/
theorem Form.decode_encode (cs : Size) (f : Form) (rest : List Byte) (hf : f.wellFormed = true) :
    decode cs (f.encode cs ++ rest) = .ok (f.instr, rest) := by
  cases f with
  | jccShort c os rel =>
    have h := takeForm_jccShort os os c.code rel rest
    rw [Cond.ofCode_code] at h
    simpa [Form.encode] using decode_plain cs os (isPlainOpcode_jccShort c.code) h
  | jcountShort as os rel =>
    have e := decode_encodedPrefixes cs os as none (op := 0xE3) rfl (rel :: rest)
    rw [takeForm_countJump] at e
    simpa [Form.encode, segPrefix, Except.map] using e
  | jccNear16 c rel =>
    have h := takeForm_jccNear16 .s16 c.code (take16_bytes16 rel rest)
    rw [Cond.ofCode_code] at h
    simpa [Form.encode] using decode_plain cs .s16 (op := 0x0F) rfl h
  | jccNear32 c rel =>
    have h := takeForm_jccNear32 .s32 c.code (take32_bytes32 rel rest)
    rw [Cond.ofCode_code] at h
    simpa [Form.encode] using decode_plain cs .s32 (op := 0x0F) rfl h
  | jmpShort os rel => simpa [Form.encode] using decode_plain cs os (op := 0xEB) rfl (takeForm_jmpShort os os rel rest)
  | jmpNear16 rel =>
    simpa [Form.encode] using
      decode_plain cs .s16 (op := 0xE9) rfl (takeForm_jmpNear16 .s16 (take16_bytes16 rel rest))
  | jmpNear32 rel =>
    simpa [Form.encode] using
      decode_plain cs .s32 (op := 0xE9) rfl (takeForm_jmpNear32 .s32 (take32_bytes32 rel rest))
  | jmpDirectFar16 off sel =>
    simpa [Form.encode] using decode_plain cs .s16 (op := 0xEA) rfl
      (takeForm_jmpDirectFar16 .s16 (take16_bytes16 off _) (take16_bytes16 sel rest))
  | jmpDirectFar32 off sel =>
    simpa [Form.encode] using decode_plain cs .s32 (op := 0xEA) rfl
      (takeForm_jmpDirectFar32 .s32 (take32_bytes32 off _) (take16_bytes16 sel rest))
  | jmpIndirect os op =>
    cases op with
    | reg r =>
      have e := decode_encodedPrefixes cs os cs none (op := 0xFF) rfl (fieldByte 3 4 r.code :: rest)
      rw [takeForm_groupFF, takeGroupFF_register (by simp [Prefixes.onlyOpSize]), Reg.ofCode_code] at e
      simpa [Form.encode, addrSizePrefix, segPrefix, Except.map] using e
    | mem m =>
      obtain ⟨mod, rm, tail, hmod, henc, hread⟩ := m.addr.encode_readable hf
      simpa [Form.encode, henc] using decode_groupFF cs os m (takeGroupFF_near hmod (hread rest) _ os)
  | jmpIndirectFar os m =>
    obtain ⟨mod, rm, tail, hmod, henc, hread⟩ := m.addr.encode_readable hf
    simpa [Form.encode, henc] using decode_groupFF cs os m (takeGroupFF_far hmod (hread rest) _ os)

/-- Settles O1: an instruction is its form's, and decoding undoes encoding form by form. -/
theorem decodeOfEncodeIsIdentity : Obligations.DecodeOfEncodeIsIdentity := by
  intro cs i rest hi
  have hf : i.form.wellFormed = true := by rw [← Form.wellFormed_instr, Instr.instr_form, hi]
  simpa [encode] using i.form.decode_encode cs rest hf

/-! ### What was decoded is well-formed and takes its length -/

/-- How many prefixes have been read. -/
def Prefixes.count (p : Prefixes) : Nat := p.opSize.toNat + p.addrSize.toNat + p.seg.isSome.toNat

theorem Prefixes.count_add {p q : Prefixes} {k : PrefixKind} (h : p.add k = some q) : q.count = p.count + 1 := by
  cases k with
  | opSize =>
    obtain ⟨hnew, rfl⟩ : p.opSize = false ∧ { p with opSize := true } = q := by simpa [Prefixes.add] using h
    simp only [Prefixes.count, hnew, Bool.toNat_true, Bool.toNat_false]
    omega
  | addrSize =>
    obtain ⟨hnew, rfl⟩ : p.addrSize = false ∧ { p with addrSize := true } = q := by simpa [Prefixes.add] using h
    simp only [Prefixes.count, hnew, Bool.toNat_true, Bool.toNat_false]
    omega
  | seg s =>
    obtain ⟨hnew, rfl⟩ : p.seg = none ∧ { p with seg := some s } = q := by simpa [Prefixes.add] using h
    simp [Prefixes.count, hnew]

theorem takePrefixes_length {p q : Prefixes} {bs r : List Byte} (h : takePrefixes p bs = .ok (q, r)) :
    bs.length + p.count = r.length + q.count := by
  induction bs generalizing p with
  | nil => cases h
  | cons b bs ih =>
    cases hk : prefixKind b with
    | none => simp [takePrefixes, hk] at h; obtain ⟨rfl, rfl⟩ := h; rfl
    | some k =>
      cases ha : p.add k with
      | none => simp [takePrefixes, hk, ha] at h
      | some p' =>
        have := ih (p := p') (by simpa [takePrefixes, hk, ha] using h)
        have := Prefixes.count_add ha
        simp only [List.length_cons]
        omega

theorem take8_length {bs r : List Byte} {b : Byte} (h : take8 bs = .ok (b, r)) : bs.length = r.length + 1 := by
  unfold take8 at h
  split at h
  · cases h; rfl
  · cases h

theorem take16_length {bs r : List Byte} {v : Half} (h : take16 bs = .ok (v, r)) : bs.length = r.length + 2 := by
  unfold take16 at h
  split at h
  · cases h; rfl
  · cases h

theorem take32_length {bs r : List Byte} {v : Word} (h : take32 bs = .ok (v, r)) : bs.length = r.length + 4 := by
  unfold take32 at h
  split at h
  · cases h; rfl
  · cases h

theorem base16Ok_ofCode {rm : BitVec 3} (h : rm ≠ 6) : Addr.base16Ok (Base16.ofCode rm) .none = true := by
  revert rm; decide

theorem ofCode_ne_esp {rm : BitVec 3} (h : rm ≠ 4) : Reg.ofCode rm ≠ .esp := by revert rm; decide

theorem ofCode_ne_ebp {rm : BitVec 3} (h : rm ≠ 5) : Reg.ofCode rm ≠ .ebp := by revert rm; decide

/-- What an address reader promises of the address it gives: it has an encoding, of the reader's size, and takes its
length. -/
def ReadsAddress (as : Size) (r : List Byte) (a : Addr) (r' : List Byte) : Prop :=
  a.wellFormed = true ∧ a.size = as ∧ r.length = r'.length + a.length

theorem takeAddr16_reads {mod : BitVec 2} {rm : BitVec 3} {r r' : List Byte} {a : Addr}
    (h : takeAddr16 mod rm r = .ok (a, r')) : ReadsAddress .s16 r a r' := by
  unfold takeAddr16 at h
  split at h
  · split at h
    · obtain ⟨⟨d, t⟩, hd, ha⟩ := (bind_ok_iff _ _ _).1 h
      cases ha
      exact ⟨rfl, rfl, take16_length hd⟩
    · next hrm => cases h; exact ⟨base16Ok_ofCode hrm, rfl, rfl⟩
  · obtain ⟨⟨d, t⟩, hd, ha⟩ := (bind_ok_iff _ _ _).1 h
    cases ha
    exact ⟨by simp [Addr.wellFormed, Addr.base16Ok], rfl, take8_length hd⟩
  · obtain ⟨⟨d, t⟩, hd, ha⟩ := (bind_ok_iff _ _ _).1 h
    cases ha
    exact ⟨by simp [Addr.wellFormed, Addr.base16Ok], rfl, take16_length hd⟩

theorem takeSib_reads {mod : BitVec 2} {r r' : List Byte} {a : Addr} (h : takeSib mod r = .ok (a, r')) :
    ReadsAddress .s32 r a r' := by
  obtain ⟨⟨sib, t⟩, hsib, h⟩ := (bind_ok_iff _ _ _).1 h
  have hlen := take8_length hsib
  dsimp only at h
  split at h
  · split at h
    · obtain ⟨⟨d, u⟩, hd, ha⟩ := (bind_ok_iff _ _ _).1 h
      have := take32_length hd
      cases ha
      exact ⟨by simp [Addr.wellFormed], rfl, by simp only [Addr.length]; omega⟩
    · next hbase =>
      cases h
      exact ⟨by simp [Addr.wellFormed, Addr.sibBaseOk, ofCode_ne_ebp hbase], rfl, hlen⟩
  · obtain ⟨⟨d, u⟩, hd, ha⟩ := (bind_ok_iff _ _ _).1 h
    have := take8_length hd
    cases ha
    exact ⟨by simp [Addr.wellFormed, Addr.sibBaseOk], rfl, by simp only [Addr.length, Disp32.length]; omega⟩
  · obtain ⟨⟨d, u⟩, hd, ha⟩ := (bind_ok_iff _ _ _).1 h
    have := take32_length hd
    cases ha
    exact ⟨by simp [Addr.wellFormed, Addr.sibBaseOk], rfl, by simp only [Addr.length, Disp32.length]; omega⟩

theorem takeAddr32_reads {mod : BitVec 2} {rm : BitVec 3} {r r' : List Byte} {a : Addr}
    (h : takeAddr32 mod rm r = .ok (a, r')) : ReadsAddress .s32 r a r' := by
  unfold takeAddr32 at h
  split at h
  · exact takeSib_reads h
  next hsp =>
  have hsp := ofCode_ne_esp hsp
  split at h
  · split at h
    · obtain ⟨⟨d, t⟩, hd, ha⟩ := (bind_ok_iff _ _ _).1 h
      cases ha
      exact ⟨rfl, rfl, take32_length hd⟩
    · next hbp =>
      cases h
      exact ⟨by simp [Addr.wellFormed, Addr.base32Ok, hsp, ofCode_ne_ebp hbp], rfl, rfl⟩
  · obtain ⟨⟨d, t⟩, hd, ha⟩ := (bind_ok_iff _ _ _).1 h
    cases ha
    exact ⟨by simp [Addr.wellFormed, Addr.base32Ok, hsp], rfl, take8_length hd⟩
  · obtain ⟨⟨d, t⟩, hd, ha⟩ := (bind_ok_iff _ _ _).1 h
    cases ha
    exact ⟨by simp [Addr.wellFormed, Addr.base32Ok, hsp], rfl, take32_length hd⟩

theorem takeAddr_reads {as : Size} {mod : BitVec 2} {rm : BitVec 3} {r r' : List Byte} {a : Addr}
    (h : takeAddr as mod rm r = .ok (a, r')) : ReadsAddress as r a r' := by
  cases as with
  | s16 => exact takeAddr16_reads h
  | s32 => exact takeAddr32_reads h

@[simp] theorem sizePrefixLength_prefixed (cs : Size) (b : Bool) : sizePrefixLength cs (cs.prefixed b) = b.toNat := by
  cases cs <;> cases b <;> rfl

/-- What the reader of an opcode promises of the form it gives, with so many prefix bytes before the opcode: it has an
encoding and takes its length. -/
def ReadsForm (cs : Size) (prefixes : Nat) (r : List Byte) (f : Form) (r' : List Byte) : Prop :=
  f.wellFormed = true ∧ prefixes + 1 + r.length = r'.length + f.length cs

theorem takeGroup0F_reads {cs os : Size} {r r' : List Byte} {f : Form} (h : takeGroup0F os r = .ok (f, r')) :
    ReadsForm cs (sizePrefixLength cs os) r f r' := by
  obtain ⟨⟨op, t⟩, hop, h⟩ := (bind_ok_iff _ _ _).1 h
  have hlen := take8_length hop
  dsimp only at h
  split at h
  · cases os with
    | s16 =>
      obtain ⟨⟨d, u⟩, hd, hf⟩ := (bind_ok_iff _ _ _).1 h
      have := take16_length hd
      cases hf
      exact ⟨rfl, by simp only [Form.length]; omega⟩
    | s32 =>
      obtain ⟨⟨d, u⟩, hd, hf⟩ := (bind_ok_iff _ _ _).1 h
      have := take32_length hd
      cases hf
      exact ⟨rfl, by simp only [Form.length]; omega⟩
  · cases h

theorem takeNear_reads {cs os : Size} {r r' : List Byte} {f : Form} (h : takeNear os r = .ok (f, r')) :
    ReadsForm cs (sizePrefixLength cs os) r f r' := by
  cases os with
  | s16 =>
    obtain ⟨⟨d, t⟩, hd, hf⟩ := (bind_ok_iff _ _ _).1 h
    have := take16_length hd
    cases hf
    exact ⟨rfl, by simp only [Form.length]; omega⟩
  | s32 =>
    obtain ⟨⟨d, t⟩, hd, hf⟩ := (bind_ok_iff _ _ _).1 h
    have := take32_length hd
    cases hf
    exact ⟨rfl, by simp only [Form.length]; omega⟩

theorem takePointer_reads {cs os : Size} {r r' : List Byte} {f : Form} (h : takePointer os r = .ok (f, r')) :
    ReadsForm cs (sizePrefixLength cs os) r f r' := by
  cases os with
  | s16 =>
    obtain ⟨⟨off, t⟩, hoff, h⟩ := (bind_ok_iff _ _ _).1 h
    obtain ⟨⟨sel, u⟩, hsel, hf⟩ := (bind_ok_iff _ _ _).1 h
    have := take16_length hoff
    have := take16_length hsel
    cases hf
    exact ⟨rfl, by simp only [Form.length]; omega⟩
  | s32 =>
    obtain ⟨⟨off, t⟩, hoff, h⟩ := (bind_ok_iff _ _ _).1 h
    obtain ⟨⟨sel, u⟩, hsel, hf⟩ := (bind_ok_iff _ _ _).1 h
    have := take32_length hoff
    have := take16_length hsel
    cases hf
    exact ⟨rfl, by simp only [Form.length]; omega⟩

theorem Prefixes.count_of_onlyOpSize {p : Prefixes} (h : p.onlyOpSize = true) : p.count = p.opSize.toNat := by
  obtain ⟨ha, hs⟩ : p.addrSize = false ∧ p.seg = none := by simpa [Prefixes.onlyOpSize] using h
  simp [Prefixes.count, ha, hs]

/-- The prefix and address bytes of a memory operand that was read behind these prefixes. -/
theorem MemOp.length_of_reads {cs : Size} {p : Prefixes} {a : Addr} (ha : a.size = cs.prefixed p.addrSize) :
    MemOp.length cs (cs.prefixed p.opSize) ⟨p.seg, a⟩ = p.count + a.length := by
  have hseg : (if p.seg.isSome = true then 1 else 0) = p.seg.isSome.toNat := by cases p.seg <;> rfl
  simp only [MemOp.length, Prefixes.count, ha, sizePrefixLength_prefixed, hseg]

theorem takeGroupFF_reads {cs : Size} {p : Prefixes} {r r' : List Byte} {f : Form}
    (h : takeGroupFF p (cs.prefixed p.opSize) (cs.prefixed p.addrSize) r = .ok (f, r')) :
    ReadsForm cs p.count r f r' := by
  obtain ⟨⟨m, t⟩, hm, h⟩ := (bind_ok_iff _ _ _).1 h
  have hlen := take8_length hm
  dsimp only at h
  split at h
  · split at h
    · split at h
      · next hp =>
        have := Prefixes.count_of_onlyOpSize hp
        cases h
        exact ⟨rfl, by simp only [Form.length, sizePrefixLength_prefixed]; omega⟩
      · cases h
    · obtain ⟨⟨a, u⟩, ha, hf⟩ := (bind_ok_iff _ _ _).1 h
      obtain ⟨hwf, hsize, halen⟩ := takeAddr_reads ha
      have := MemOp.length_of_reads hsize
      cases hf
      exact ⟨hwf, by simp only [Form.length]; omega⟩
  · split at h
    · split at h <;> cases h
    · obtain ⟨⟨a, u⟩, ha, hf⟩ := (bind_ok_iff _ _ _).1 h
      obtain ⟨hwf, hsize, halen⟩ := takeAddr_reads ha
      have := MemOp.length_of_reads hsize
      cases hf
      exact ⟨hwf, by simp only [Form.length]; omega⟩
  · cases h

theorem takeForm_reads {cs : Size} {p : Prefixes} {op : Byte} {r r' : List Byte} {f : Form}
    (h : takeForm p (cs.prefixed p.opSize) (cs.prefixed p.addrSize) op r = .ok (f, r')) :
    ReadsForm cs p.count r f r' := by
  unfold takeForm at h
  split at h
  · exact takeGroupFF_reads h
  split at h
  · split at h
    · next hseg =>
      have hs : p.seg = none := by simpa using hseg
      obtain ⟨⟨d, t⟩, hd, hf⟩ := (bind_ok_iff _ _ _).1 h
      have := take8_length hd
      cases hf
      exact ⟨rfl, by simp [Form.length, Prefixes.count, hs]; omega⟩
    · cases h
  split at h
  · cases h
  next hp =>
  have hcount : p.count = sizePrefixLength cs (cs.prefixed p.opSize) := by
    rw [sizePrefixLength_prefixed, Prefixes.count_of_onlyOpSize (by simpa using hp)]
  rw [hcount]
  split at h
  · obtain ⟨⟨d, t⟩, hd, hf⟩ := (bind_ok_iff _ _ _).1 h
    have := take8_length hd
    cases hf
    exact ⟨rfl, by simp only [Form.length]; omega⟩
  split at h
  · exact takeGroup0F_reads h
  split at h
  · exact takeNear_reads h
  split at h
  · exact takePointer_reads h
  split at h
  · obtain ⟨⟨d, t⟩, hd, hf⟩ := (bind_ok_iff _ _ _).1 h
    have := take8_length hd
    cases hf
    exact ⟨rfl, by simp only [Form.length]; omega⟩
  · cases h

/-- Settles O2: the prefixes, the opcode and what follows it are counted by their readers. -/
theorem decodedIsWellFormedAndTakesItsLength : Obligations.DecodedIsWellFormedAndTakesItsLength := by
  intro cs bs rest i h
  obtain ⟨⟨p, r⟩, hp, h⟩ := (bind_ok_iff _ _ _).1 h
  obtain ⟨⟨op, t⟩, hop, h⟩ := (bind_ok_iff _ _ _).1 h
  obtain ⟨⟨f, u⟩, hf, hi⟩ := (bind_ok_iff _ _ _).1 h
  cases hi
  have hprefixes := takePrefixes_length hp
  have hopcode := take8_length hop
  obtain ⟨hwf, hlen⟩ := takeForm_reads hf
  have hnone : Prefixes.count {} = 0 := rfl
  refine ⟨by rw [Form.wellFormed_instr, hwf], ?_⟩
  rw [instrLength, Form.form_instr]
  omega

end Sys2Proof

namespace Sys2Proof
open Machine

/-! SUPPORT. The statements on opcode tables and on prefixes. -/

/-! ### The opcode tables -/

/-- A plain opcode in its segment's own operand size. -/
theorem decode_plain_bare (cs : Size) {op : Byte} (hop : isPlainOpcode op = true) {r r' : List Byte} {f : Form}
    (h : takeForm {} cs cs op r = .ok (f, r')) : decode cs (op :: r) = .ok (f.instr, r') := by
  simpa [opSizePrefix] using decode_plain cs cs hop h

theorem decode_jccShort (cs : Size) (cc : BitVec 4) (rel : Byte) (rest : List Byte) :
    decode cs ((7#4 ++ cc) :: rel :: rest) = .ok (Instr.jccShort (Cond.ofCode cc) cs rel, rest) :=
  decode_plain_bare cs (isPlainOpcode_jccShort cc) (takeForm_jccShort cs cs cc rel rest)

theorem decode_jccNear16 (cc : BitVec 4) (b0 b1 : Byte) (rest : List Byte) :
    decode .s16 (0x0F :: (8#4 ++ cc) :: b0 :: b1 :: rest) = .ok (Instr.jccNear16 (Cond.ofCode cc) (b1 ++ b0), rest) :=
  decode_plain_bare .s16 rfl (takeForm_jccNear16 .s16 cc rfl)

theorem decode_jccNear32 (cc : BitVec 4) (b0 b1 b2 b3 : Byte) (rest : List Byte) :
    decode .s32 (0x0F :: (8#4 ++ cc) :: b0 :: b1 :: b2 :: b3 :: rest) =
      .ok (Instr.jccNear32 (Cond.ofCode cc) (b3 ++ b2 ++ b1 ++ b0), rest) :=
  decode_plain_bare .s32 rfl (takeForm_jccNear32 .s32 cc rfl)

/-- The sixteen condition numbers in order. -/
def condCodes : List (BitVec 4) := [0, 1, 2, 3, 4, 5, 6, 7, 8, 9, 10, 11, 12, 13, 14, 15]

/-- Settles O3: the layouts hold for every condition number, and the two tables list them number by number. -/
theorem conditionalOpcodesDecode : Obligations.ConditionalOpcodesDecode := by
  refine ⟨fun cs cc rest => ⟨fun rel => decode_jccShort cs cc rel rest, fun b0 b1 => decode_jccNear16 cc b0 b1 rest,
    fun b0 b1 b2 b3 => decode_jccNear32 cc b0 b1 b2 b3 rest⟩, ?_, ?_⟩
  · change ∀ row ∈ condCodes.map fun cc => (7#4 ++ cc, Instr.jccShort (Cond.ofCode cc)), _
    intro row hrow cs rel rest
    obtain ⟨cc, -, rfl⟩ := List.mem_map.1 hrow
    exact decode_jccShort cs cc rel rest
  · change ∀ row ∈ condCodes.map fun cc =>
      (8#4 ++ cc, Instr.jccNear16 (Cond.ofCode cc), Instr.jccNear32 (Cond.ofCode cc)), _
    intro row hrow b0 b1 b2 b3 rest
    obtain ⟨cc, -, rfl⟩ := List.mem_map.1 hrow
    exact ⟨decode_jccNear16 cc b0 b1 rest, decode_jccNear32 cc b0 b1 b2 b3 rest⟩

/-- Settles O4: each opcode by the reader of its operand. -/
theorem countAndUnconditionalOpcodesDecode : Obligations.CountAndUnconditionalOpcodesDecode := by
  intro rest
  refine ⟨fun rel => ?_, fun cs rel => ?_, fun b0 b1 => ?_, fun b0 b1 b2 b3 => ?_, fun b0 b1 s0 s1 => ?_,
    fun b0 b1 b2 b3 s0 s1 => ?_⟩
  · have count (cs as : Size) := (Form.jcountShort as cs rel).decode_encode cs rest rfl
    exact ⟨count .s16 .s16, count .s32 .s32, count .s16 .s32, count .s32 .s16⟩
  · exact decode_plain_bare cs rfl (takeForm_jmpShort cs cs rel rest)
  · exact decode_plain_bare .s16 rfl (takeForm_jmpNear16 .s16 rfl)
  · exact decode_plain_bare .s32 rfl (takeForm_jmpNear32 .s32 rfl)
  · exact decode_plain_bare .s16 rfl (takeForm_jmpDirectFar16 .s16 rfl rfl)
  · exact decode_plain_bare .s32 rfl (takeForm_jmpDirectFar32 .s32 rfl rfl)

/-- `FF /4` with a register, in the segment's operand size or the other. -/
theorem decode_jmpRegister (cs os : Size) (r : Reg) (rest : List Byte) :
    decode cs (opSizePrefix cs os ++ (0xFF :: fieldByte 3 4 r.code :: rest)) =
      .ok ((Form.jmpIndirect os (.reg r)).instr, rest) := by
  simpa [Form.encode] using (Form.jmpIndirect os (.reg r)).decode_encode cs rest rfl

/-- Settles O5: the ModR/M bytes E0 to E7 hold the register numbers in order. -/
theorem registerIndirectDecodes : Obligations.RegisterIndirectDecodes := by
  have decodes (r : Reg) (rest : List Byte) :=
    And.intro (decode_jmpRegister .s16 .s16 r rest) (And.intro (decode_jmpRegister .s32 .s32 r rest)
      (And.intro (decode_jmpRegister .s16 .s32 r rest) (decode_jmpRegister .s32 .s16 r rest)))
  unfold Obligations.RegisterIndirectDecodes
  simp only [List.forall_mem_cons, List.not_mem_nil, false_imp_iff, implies_true, and_true]
  exact ⟨⟨decodes .eax, fun _ => rfl⟩, ⟨decodes .ecx, fun _ => rfl⟩, ⟨decodes .edx, fun _ => rfl⟩,
    ⟨decodes .ebx, fun _ => rfl⟩, ⟨decodes .esp, fun _ => rfl⟩, ⟨decodes .ebp, fun _ => rfl⟩,
    ⟨decodes .esi, fun _ => rfl⟩, ⟨decodes .edi, fun _ => rfl⟩⟩

/-- Settles O6: each word is the encoding of its instruction. -/
theorem specWordsDecode : Obligations.SpecWordsDecode := by
  have word (cs : Size) (i : Instr) (hi : i.wellFormed = true) : decode cs (encode cs i) = .ok (i, []) := by
    simpa using decodeOfEncodeIsIdentity cs i [] hi
  exact ⟨word .s32 (.jERel8 .s32 0x10) rfl, word .s16 (.jERel16 0x0EFC) rfl, word .s16 (.jecxzRel8 .s16 0x05) rfl,
    word .s32 (.jmpRel8 .s32 0xF0) rfl, word .s32 (.jmpRm32 (.mem ⟨none, .sibDirect 2 (some .ecx) 0x3000⟩)) rfl,
    word .s16 (.jmpRm16 (.mem ⟨some .es, .direct16 0x3000⟩)) rfl, word .s16 (.jmpPtr1632 0x12345678 0x2000) rfl,
    word .s32 (.jmpM1632 ⟨none, .direct32 0x3FFC⟩) rfl⟩

/-! ### Refused prefixes -/

/-- A stack that holds an override has one in its sum. -/
theorem Prefixes.seg_of_mem {p q : Prefixes} {ps : List Byte} (h : p.addBytes ps = some q)
    (hps : ∃ b ∈ ps, b ∈ overrideBytes) : q.seg.isSome = true := by
  obtain ⟨b, hb, ho⟩ := hps
  have hpos : 0 < ps.countP (overrideBytes.contains ·) := List.countP_pos_iff.2 ⟨b, hb, by simpa using ho⟩
  have := (Prefixes.addBytes_counts h).2.2
  exact Bool.toNat_eq_one.1 (by have := q.seg.isSome.toNat_le; omega)

/-- A stack that holds an address-size prefix or an override leaves a prefix that a plain opcode cannot use. -/
theorem Prefixes.onlyOpSize_of_mem {p q : Prefixes} {ps : List Byte} (h : p.addBytes ps = some q)
    (hps : ∃ b ∈ ps, b ∈ 0x67#8 :: overrideBytes) : q.onlyOpSize = false := by
  obtain ⟨b, hb, ho⟩ := hps
  rcases List.mem_cons.1 ho with rfl | ho
  · have hpos : 0 < ps.count 0x67 := List.count_pos_iff.2 hb
    have := (Prefixes.addBytes_counts h).2.1
    have ha : q.addrSize = true := Bool.toNat_eq_one.1 (by have := q.addrSize.toNat_le; omega)
    simp [Prefixes.onlyOpSize, ha]
  · obtain ⟨s, hs⟩ := Option.isSome_iff_exists.1 (Prefixes.seg_of_mem h ⟨b, hb, ho⟩)
    simp [Prefixes.onlyOpSize, hs]

/-- A stack that can be added holds no prefix twice. -/
theorem Prefixes.nodup_of_addBytes {p q : Prefixes} {ps : List Byte} (hps : ∀ b ∈ ps, b ∈ prefixBytes)
    (h : p.addBytes ps = some q) : ps.Nodup := by
  obtain ⟨ho, ha, hs⟩ := Prefixes.addBytes_counts h
  have := q.opSize.toNat_le
  have := q.addrSize.toNat_le
  have := q.seg.isSome.toNat_le
  rw [List.nodup_iff_count_le_one]
  intro b
  by_cases hb : b ∈ ps
  · rcases List.mem_cons.1 (hps b hb) with rfl | hb'
    · omega
    rcases List.mem_cons.1 hb' with rfl | hover
    · omega
    · have : ps.count b ≤ ps.countP (overrideBytes.contains ·) :=
        List.countP_mono_left fun x _ hx => by rw [beq_iff_eq.1 hx]; simpa using hover
      omega
  · rw [List.count_eq_zero.2 hb]; omega

/-- A stack that can be added holds at most one override. -/
theorem Prefixes.overrides_of_addBytes {p q : Prefixes} {ps : List Byte} (h : p.addBytes ps = some q) :
    (ps.filter fun b => overrideBytes.contains b).length ≤ 1 := by
  have := (Prefixes.addBytes_counts h).2.2
  have := q.seg.isSome.toNat_le
  rw [← List.countP_eq_length_filter]
  omega

/-- An opcode that every sum of the stack refuses is refused behind the stack. -/
theorem decode_refused (cs : Size) {ps : List Byte} (hps : ∀ b ∈ ps, b ∈ prefixBytes) {op : Byte}
    (hop : prefixKind op = none) {r : List Byte}
    (h : ∀ p, Prefixes.addBytes {} ps = some p → ∀ os as, takeForm p os as op r = .error .notInSpec) :
    decode cs (ps ++ op :: r) = .error .notInSpec := by
  rw [decode_stack cs hps hop]
  cases hp : Prefixes.addBytes {} ps with
  | none => rfl
  | some p => simp [decodeOpcode, h p hp, Except.map]

theorem takeForm_lockOrRepeat {b : Byte} (hb : b ∈ [0xF0#8, 0xF2#8, 0xF3#8]) (p : Prefixes) (os as : Size)
    (r : List Byte) : takeForm p os as b r = .error .notInSpec := by
  simp only [List.mem_cons, List.not_mem_nil, or_false] at hb
  rcases hb with rfl | rfl | rfl <;> cases hp : p.onlyOpSize <;> simp [takeForm, hp]

/-- Settles O8: what the stack adds up to is known by counting, and the opcode refuses it. -/
theorem idleAndRepeatedPrefixesAreRefused : Obligations.IdleAndRepeatedPrefixesAreRefused := by
  intro cs ps rest hps
  refine ⟨fun hidle op hop => ?_, fun hover => ?_, fun hidle digit rm => ?_, fun hrep => ?_, fun b hb => ?_⟩
  · refine decode_refused cs hps (isPlainOpcode_facts hop).1 fun p hp os as => ?_
    simp [takeForm_plain hop, Prefixes.onlyOpSize_of_mem hp hidle]
  · refine decode_refused cs hps rfl fun p hp os as => ?_
    obtain ⟨s, hs⟩ := Option.isSome_iff_exists.1 (Prefixes.seg_of_mem hp hover)
    simp [takeForm, hs]
  · exact decode_refused cs hps rfl fun p hp os as =>
      takeGroupFF_register_refused (Prefixes.onlyOpSize_of_mem hp hidle) os as digit rm rest
  · refine decode_stack_refused cs hps ?_ rest
    cases hp : Prefixes.addBytes {} ps with
    | none => rfl
    | some p =>
      rcases hrep with hdup | htwo
      · exact absurd (Prefixes.nodup_of_addBytes hps hp) hdup
      · have := Prefixes.overrides_of_addBytes hp
        omega
  · have hop : prefixKind b = none := by revert b; decide
    exact decode_refused cs hps hop fun p _ os as => takeForm_lockOrRepeat hb p os as rest

/-! ### The operand-size prefix -/

/-- A form with the other operand size, for the opcodes E3 and FF. -/
def Form.otherOperandSize : Form → Form
  | .jcountShort as os rel => .jcountShort as os.other rel
  | .jmpIndirect os op => .jmpIndirect os.other op
  | .jmpIndirectFar os m => .jmpIndirectFar os.other m
  | f => f

theorem Form.instr_otherOperandSize (f : Form) : f.otherOperandSize.instr = Machine.otherOperandSize f.instr := by
  cases f with
  | jccShort c os rel => cases c <;> rfl
  | jccNear16 c rel => cases c <;> rfl
  | jccNear32 c rel => cases c <;> rfl
  | jcountShort as os rel => cases as <;> rfl
  | jmpIndirect os op => cases os <;> rfl
  | jmpIndirectFar os m => cases os <;> rfl
  | _ => rfl

theorem takeGroupFF_otherOperandSize (p : Prefixes) (os as : Size) (r : List Byte) :
    takeGroupFF { p with opSize := true } os.other as r =
      (takeGroupFF p os as r).map fun x => (x.1.otherOperandSize, x.2) := by
  have hp : ({ p with opSize := true } : Prefixes).onlyOpSize = p.onlyOpSize := rfl
  cases r with
  | nil => rfl
  | cons m r =>
    simp only [takeGroupFF, take8_cons, bind_ok, hp]
    split
    · split
      · split <;> rfl
      · cases takeAddr as (m.extractLsb' 6 2) (m.extractLsb' 0 3) r <;> rfl
    · split
      · split <;> rfl
      · cases takeAddr as (m.extractLsb' 6 2) (m.extractLsb' 0 3) r <;> rfl
    · rfl

/-- The opcodes E3 and FF carry the operand size into their form, and nothing else depends on it. -/
theorem takeForm_otherOperandSize {op : Byte} (hop : op ∈ [0xE3#8, 0xFF#8]) (p : Prefixes) (os as : Size)
    (r : List Byte) :
    takeForm { p with opSize := true } os.other as op r =
      (takeForm p os as op r).map fun x => (x.1.otherOperandSize, x.2) := by
  simp only [List.mem_cons, List.not_mem_nil, or_false] at hop
  rcases hop with rfl | rfl
  · cases r with
    | nil => cases hs : p.seg <;> simp [takeForm, hs, take8, Except.map]
    | cons rel r => cases hs : p.seg <;> simp [takeForm, hs, Except.map, Form.otherOperandSize]
  · exact takeGroupFF_otherOperandSize p os as r

theorem decodeOpcode_opSize {op : Byte} (hop : op ∈ [0xE3#8, 0xFF#8]) (cs : Size) {p : Prefixes}
    (hp : p.opSize = false) (r : List Byte) :
    decodeOpcode cs { p with opSize := true } op r =
      (decodeOpcode cs p op r).map fun x => (Machine.otherOperandSize x.1, x.2) := by
  have h := takeForm_otherOperandSize hop p cs (cs.prefixed p.addrSize) r
  simp only [decodeOpcode, Size.prefixed, hp, if_true, Bool.false_eq_true, if_false] at h ⊢
  rw [h]
  cases takeForm p cs (if p.addrSize = true then cs.other else cs) op r <;>
    simp [Except.map, Form.instr_otherOperandSize]

/-- Settles O11: a plain opcode sees only the operand size that the prefix gives, E3 and FF carry it into their form. -/
theorem operandSizePrefixPicksTheOtherForm : Obligations.OperandSizePrefixPicksTheOtherForm := by
  intro cs rest
  refine ⟨fun op hop => ?_, fun ps op hps hop => ?_⟩
  · have hnone := (isPlainOpcode_facts hop).1
    have hprefix : takePrefixes {} (0x66 :: op :: rest) = .ok ({ opSize := true }, op :: rest) :=
      takePrefixes_opcode { opSize := true } hnone rest
    rw [decode_of_takePrefixes hprefix, decode_bare cs.other hnone]
    rw [decodeOpcode, decodeOpcode, takeForm_plain hop, takeForm_plain hop]
    rfl
  · have hnone : prefixKind op = none := by revert op; decide
    have hstack : ∀ b ∈ ps, b ∈ prefixBytes := fun b hb => (hps b hb).1
    have hwith : ∀ b ∈ 0x66 :: ps, b ∈ prefixBytes := List.forall_mem_cons.2 ⟨by decide, hstack⟩
    have hadd : Prefixes.addBytes {} (0x66 :: ps) = (Prefixes.addBytes {} ps).map fun q => { q with opSize := true } :=
      Prefixes.addBytes_opSize (fun b hb => (hps b hb).2) {}
    rw [← List.cons_append, decode_stack cs hwith hnone, hadd, decode_stack cs hstack hnone]
    cases hp : Prefixes.addBytes {} ps with
    | none => rfl
    | some p =>
      have hcount : ps.count 0x66 = 0 := List.count_eq_zero.2 fun h => (hps _ h).2 rfl
      have hsize : p.opSize = false := by
        rw [← Bool.toNat_eq_zero, ← (Prefixes.addBytes_counts hp).1, hcount]
        rfl
      exact decodeOpcode_opSize hop cs hsize rest

end Sys2Proof

namespace Sys2Proof.Machine

/-! SUPPORT. Effective addresses as numbers, and the checked read of a memory operand. -/

/-! ### Memory operands of `FF /4` -/

/-- `FF /4` with an address that the reader gives and no prefix jumps through that address's own segment. -/
theorem jumpsThrough_of_takeAddr {cs : Size} {s : State} {mod : BitVec 2} (hmod : mod ≠ 3) {rm : BitVec 3}
    {r : List Byte} {a : Addr} {off : Nat} {seg : SegName} (h : takeAddr cs mod rm r = .ok (a, []))
    (hoff : (s.effectiveOffset a).toNat = off) (hseg : defaultSeg a = seg) :
    jumpsThrough cs s (0xFF :: (mod ++ 4#3 ++ rm) :: r) off seg := by
  refine ⟨⟨none, a⟩, ?_, hoff, hseg⟩
  have hread : takeForm {} cs cs 0xFF (fieldByte mod 4 rm :: r) = .ok (.jmpIndirect cs (.mem ⟨none, a⟩), []) :=
    takeGroupFF_near hmod h {} cs
  have hdec : decode cs (0xFF :: fieldByte mod 4 rm :: r) =
      .ok ((Form.jmpIndirect cs (.mem ⟨none, a⟩)).instr, []) := by
    rw [decode_bare cs rfl]
    change (takeForm {} cs cs 0xFF _).map _ = _
    rw [hread]
    rfl
  cases cs <;> exact hdec

/-! ### Registers and displacements as numbers -/

/-- The number table of the general registers, read by name. -/
theorem registerValue_code (s : State) (r : Reg) : registerValue s r.code = (s.reg r).toNat := by cases r <;> rfl

theorem reg_ofCode_toNat (s : State) (n : BitVec 3) : (s.reg (Reg.ofCode n)).toNat = registerValue s n := by
  rw [← registerValue_code, Reg.code_ofCode]

@[simp] theorem reg16_toNat (s : State) (r : Reg) : (s.reg16 r).toNat = (s.reg r).toNat % 65536 := by
  simp [State.reg16]

theorem base16_code_toNat (s : State) (b : Base16) : (s.base16 b).toNat = registerSum16 s b.code % 65536 := by
  cases b <;> simp [State.base16, State.reg, registerSum16, Base16.code]

/-- The register part of a 16-bit address (30_encoding.md R101). -/
theorem base16_ofCode_toNat (s : State) (rm : BitVec 3) :
    (s.base16 (Base16.ofCode rm)).toNat = registerSum16 s rm % 65536 := by
  rw [base16_code_toNat, Base16.code_ofCode]

/-- The scaled index of a SIB byte (30_encoding.md R103). -/
theorem scaledIndex_toNat (s : State) (scale : BitVec 2) (index : BitVec 3) :
    (s.scaledIndex scale (indexOfCode index)).toNat = indexPart s scale index % 4294967296 := by
  by_cases h : index = 4#3
  · simp [indexOfCode, indexPart, h, State.scaledIndex]
  · simp [indexOfCode, indexPart, h, State.scaledIndex, Nat.shiftLeft_eq, reg_ofCode_toNat]

/-- Base and scaled index together. -/
theorem sib_toNat (s : State) (scale : BitVec 2) (index base : BitVec 3) :
    (s.reg (Reg.ofCode base) + s.scaledIndex scale (indexOfCode index)).toNat =
      (registerValue s base + indexPart s scale index) % 4294967296 := by
  rw [BitVec.toNat_add, reg_ofCode_toNat, scaledIndex_toNat]
  omega

/-- Adding a signed byte is adding its value modulo 2^w. -/
theorem toNat_add_signExtend {w : Nat} (x : BitVec w) (b : Byte) :
    (x + b.signExtend w).toNat = (((x.toNat : Int) + b.toInt) % (2 ^ w : Nat)).toNat := by
  rw [BitVec.signExtend, ← BitVec.toNat_ofInt, BitVec.ofInt_add]
  simp

theorem defaultSeg16_ofCode (rm : BitVec 3) :
    defaultSeg16 (Base16.ofCode rm) = if rm.toNat ∈ [2, 3, 6] then .ss else .ds := by revert rm; decide

theorem defaultSeg32_ofCode (n : BitVec 3) :
    defaultSeg32 (Reg.ofCode n) = if n = 4 ∨ n = 5 then .ss else .ds := by revert n; decide

theorem defaultSeg32_ofCode_of_ne_five {n : BitVec 3} (h : n ≠ 5) :
    defaultSeg32 (Reg.ofCode n) = if n = 4 then .ss else .ds := by revert n; decide

theorem defaultSeg32_ofCode_of_ne_four {n : BitVec 3} (h : n ≠ 4) :
    defaultSeg32 (Reg.ofCode n) = if n = 5 then .ss else .ds := by revert n; decide

theorem defaultSeg16_ofCode_of_ne_six {rm : BitVec 3} (h : rm ≠ 6) :
    defaultSeg16 (Base16.ofCode rm) = if rm.toNat ∈ [2, 3] then .ss else .ds := by revert rm; decide

@[simp] theorem zext16_toNat (v : Half) : (zext16 v).toNat = v.toNat := by
  simp only [zext16, BitVec.toNat_setWidth]
  exact Nat.mod_eq_of_lt (by have := v.isLt; omega)

/-! ### The address tables -/

/-- Settles O12: each ModR/M byte is read as an address, and that address is worked out in numbers. -/
theorem effectiveAddress16 : Obligations.EffectiveAddress16 := by
  intro s rm
  refine ⟨fun hrm => ?_, fun b0 b1 => ?_⟩
  · have hread : takeAddr .s16 0 rm [] = .ok (.base16 (Base16.ofCode rm) .none, []) := if_neg hrm
    refine jumpsThrough_of_takeAddr (by decide) hread ?_ (defaultSeg16_ofCode_of_ne_six hrm)
    simp [State.effectiveOffset, dispValue16, base16_ofCode_toNat]
  · have hread : takeAddr .s16 2 rm [b0, b1] = .ok (.base16 (Base16.ofCode rm) (.d16 (le16 b0 b1)), []) := rfl
    refine jumpsThrough_of_takeAddr (by decide) hread ?_ (defaultSeg16_ofCode rm)
    simp [State.effectiveOffset, dispValue16, base16_ofCode_toNat, le16_toNat]

/-- Settles O13, as O12, with the signed byte added as an integer. -/
theorem shortDisplacement16 : Obligations.ShortDisplacement16 := by
  refine ⟨fun s rm b => ?_, fun s b0 b1 => ?_⟩
  · have hread : takeAddr .s16 1 rm [b] = .ok (.base16 (Base16.ofCode rm) (.d8 b), []) := rfl
    refine jumpsThrough_of_takeAddr (by decide) hread ?_ (defaultSeg16_ofCode rm)
    rw [State.effectiveOffset, zext16_toNat, dispValue16, toNat_add_signExtend, base16_ofCode_toNat]
    omega
  · have hread : takeAddr .s16 0 6 [b0, b1] = .ok (.direct16 (le16 b0 b1), []) := rfl
    refine jumpsThrough_of_takeAddr (by decide) hread ?_ rfl
    rw [State.effectiveOffset, zext16_toNat, le16_toNat]

/-- Settles O14: the SIB byte's fields are read back, and base and scaled index are summed in numbers. -/
theorem effectiveAddressSib : Obligations.EffectiveAddressSib := by
  intro s scale index base
  refine ⟨fun hbase => ?_, fun b0 b1 b2 b3 => ?_, fun b => ?_, fun b0 b1 b2 b3 => ?_⟩
  · have hread : takeAddr .s32 0 4 [fieldByte scale index base] =
        .ok (.sib scale (indexOfCode index) (Reg.ofCode base) .none, []) := by
      have hne : base ≠ 5#3 := hbase
      change takeSib 0 _ = _
      simp [takeSib, hne]
    refine jumpsThrough_of_takeAddr (by decide) hread ?_ (defaultSeg32_ofCode_of_ne_five hbase)
    rw [State.effectiveOffset, dispValue32, add_zero, sib_toNat]
  · have hread : takeAddr .s32 0 4 [fieldByte scale index 5, b0, b1, b2, b3] =
        .ok (.sibDirect scale (indexOfCode index) (le32 b0 b1 b2 b3), []) := by
      change takeSib 0 _ = _
      simp [takeSib, take32]
    refine jumpsThrough_of_takeAddr (by decide) hread ?_ rfl
    rw [State.effectiveOffset, BitVec.toNat_add, scaledIndex_toNat, le32_toNat, word32]
    omega
  · have hread : takeAddr .s32 1 4 [fieldByte scale index base, b] =
        .ok (.sib scale (indexOfCode index) (Reg.ofCode base) (.d8 b), []) := by
      change takeSib 1 _ = _
      simp [takeSib]
    refine jumpsThrough_of_takeAddr (by decide) hread ?_ (defaultSeg32_ofCode base)
    rw [State.effectiveOffset, dispValue32, sext8, toNat_add_signExtend, sib_toNat]
    omega
  · have hread : takeAddr .s32 2 4 [fieldByte scale index base, b0, b1, b2, b3] =
        .ok (.sib scale (indexOfCode index) (Reg.ofCode base) (.d32 (le32 b0 b1 b2 b3)), []) := by
      change takeSib 2 _ = _
      simp [takeSib, take32]
    refine jumpsThrough_of_takeAddr (by decide) hread ?_ (defaultSeg32_ofCode base)
    rw [State.effectiveOffset, dispValue32, BitVec.toNat_add, sib_toNat, le32_toNat, word32]
    omega

/-- Settles O15: with `rm` other than 4 no SIB byte is read. -/
theorem effectiveAddress32 : Obligations.EffectiveAddress32 := by
  intro s rm hsp
  have hseg := defaultSeg32_ofCode_of_ne_four hsp
  refine ⟨fun hbp => ?_, fun b0 b1 b2 b3 => ?_, fun b => ?_, fun b0 b1 b2 b3 => ?_⟩
  · have hread : takeAddr .s32 0 rm [] = .ok (.base32 (Reg.ofCode rm) .none, []) :=
      (if_neg hsp).trans (if_neg hbp)
    refine jumpsThrough_of_takeAddr (by decide) hread ?_ (hseg.trans (if_neg hbp))
    simp [State.effectiveOffset, dispValue32, reg_ofCode_toNat]
  · have hread : takeAddr .s32 0 5 [b0, b1, b2, b3] = .ok (.direct32 (le32 b0 b1 b2 b3), []) := rfl
    exact jumpsThrough_of_takeAddr (by decide) hread (le32_toNat b0 b1 b2 b3) rfl
  · have hread : takeAddr .s32 1 rm [b] = .ok (.base32 (Reg.ofCode rm) (.d8 b), []) := if_neg hsp
    refine jumpsThrough_of_takeAddr (by decide) hread ?_ hseg
    rw [State.effectiveOffset, dispValue32, sext8, toNat_add_signExtend, reg_ofCode_toNat]
    rfl
  · have hread : takeAddr .s32 2 rm [b0, b1, b2, b3] =
        .ok (.base32 (Reg.ofCode rm) (.d32 (le32 b0 b1 b2 b3)), []) := if_neg hsp
    refine jumpsThrough_of_takeAddr (by decide) hread ?_ hseg
    rw [State.effectiveOffset, dispValue32, BitVec.toNat_add, reg_ofCode_toNat, le32_toNat, word32]

/-! ### Reading memory -/

/-- The sum of the bytes is the number that they stand for in address order (20_memory.md R62). -/
theorem leNat_readBytes (s : State) (a : Word) (n : Nat) : leNat (s.mem.readBytes a n) = byteSum s a n := by
  induction n with
  | zero => rfl
  | succ n ih =>
    rw [Memory.readBytes_add, leNat_append, ih, Memory.length_readBytes]
    simp [byteSum, List.range_succ, Memory.readBytes, leNat, Nat.mul_comm]

/-- Settles O17: with paging off a read answers the number that the bytes stand for. -/
theorem memReadIsLittleEndian : Obligations.MemReadIsLittleEndian := by
  intro s a n hpaging
  rw [State.memRead_ok_iff, leNat_readBytes]
  exact ⟨hpaging, rfl⟩

theorem seg_eq_segmentNamed (s : State) (r : SegName) : s.seg r = segmentNamed s r := by cases r <;> rfl

/-- A selector is null when its number is below 4 (42_jmp_far.md R245). -/
theorem isNullSel_eq (sel : Half) : isNullSel sel = decide (sel.toNat < 4) := by
  rw [isNullSel, beq_eq_decide, decide_eq_decide, ← BitVec.toNat_inj, BitVec.extractLsb'_toNat,
    Nat.shiftRight_eq_div_pow]
  have := sel.isLt
  change sel.toNat / 4 % 16384 = 0 ↔ _
  omega

/-- The machine's own check is that of the rules (20_memory.md R66): the bits of the Access Rights byte (42_jmp_far.md
R246), read as a number. -/
theorem operandOk_eq_usableSegment (g : Segment) : g.operandOk = usableSegment g := by
  have har : ∀ ar : Byte, (ar.getLsbD 7 && (ar.getLsbD 4 && if ar.getLsbD 3 then ar.getLsbD 1 else !ar.getLsbD 2)) =
      (decide (128 ≤ ar.toNat) && [8, 9, 13, 15].contains (ar.toNat / 2 % 16)) := by decide
  have hsel : (!isNullSel g.selector) = decide (4 ≤ g.selector.toNat) := by
    rw [isNullSel_eq, ← decide_not, decide_eq_decide, Nat.not_lt]
  rw [Segment.operandOk, usableSegment, hsel, Bool.and_assoc, Bool.and_assoc, Bool.and_assoc, har]

/-- An operand that the rules let an instruction read is read little-endian at its segment's base plus its offset
(20_memory.md R60, R62, R66, R67). -/
theorem readMemOp_of_readable {s : State} {m : MemOp} {n : Nat} (h : readable s m n = true) :
    s.readMemOp m n = .ok (byteSum s ((segmentNamed s (operandSeg m)).base + s.effectiveOffset m.addr) n) := by
  obtain ⟨hpaging, h⟩ := Bool.and_eq_true_iff.1 h
  have hpaging : s.pagingEnabled = false := by simpa using hpaging
  rw [State.readMemOp, ← leNat_readBytes, ← seg_eq_segmentNamed]
  by_cases hm : s.mode = .protectedMode
  · obtain ⟨hseg, hlimit⟩ := Bool.and_eq_true_iff.1 ((if_pos hm).symm.trans h)
    rw [State.segRead_protected_ok_iff _ _ _ _ _ hm, operandOk_eq_usableSegment, seg_eq_segmentNamed]
    exact ⟨hseg, hlimit, hpaging, rfl⟩
  · have hlimit := (if_neg hm).symm.trans h
    rw [State.segRead_real_ok_iff _ _ _ _ _ hm]
    exact ⟨of_decide_eq_true hlimit, hpaging, rfl⟩

/-- A memory operand at an address of the segment's own size, behind its override alone. -/
theorem decode_memOperand {cs : Size} {a : Addr} (hwf : a.wellFormed = true) (hsize : a.size = cs) (o : Option SegName)
    (rest : List Byte) :
    decode cs (segPrefix o ++ 0xFF :: (a.encode 4 ++ rest)) = .ok (jmpThrough cs ⟨o, a⟩, rest) ∧
      decode cs (segPrefix o ++ 0xFF :: (a.encode 5 ++ rest)) = .ok (farJmpThrough cs ⟨o, a⟩, rest) := by
  have near := (Form.jmpIndirect cs (.mem ⟨o, a⟩)).decode_encode cs rest hwf
  have far := (Form.jmpIndirectFar cs ⟨o, a⟩).decode_encode cs rest hwf
  simp only [Form.encode, memPrefixes, opSizePrefix, addrSizePrefix, hsize, if_true, List.nil_append, List.append_assoc,
    List.cons_append] at near far
  cases cs <;> exact ⟨near, far⟩

/-- The override bytes are those of the encoder. -/
theorem overrideTable_byte {row : Byte × SegName} (h : row ∈ overrideTable) : row.1 = row.2.prefixByte := by
  revert row; decide

/-- Settles O16: the reads by the rules for a checked read, the bytes by decoding what was encoded. -/
theorem segmentOverrideReplacesTheDefault : Obligations.SegmentOverrideReplacesTheDefault := by
  refine ⟨fun s => ⟨rfl, rfl, rfl, rfl, rfl, rfl⟩, fun s m n h => readMemOp_of_readable h,
    fun cs a rest hwf hsize => ?_⟩
  refine ⟨decode_memOperand hwf hsize none rest, fun row hrow => ?_⟩
  obtain ⟨near, far⟩ := decode_memOperand hwf hsize (some row.2) rest
  rw [overrideTable_byte hrow]
  exact ⟨near, far, rfl⟩

end Sys2Proof.Machine
